-- ==== Sys2Proof/Word.lean ====
section
/-! DEFINITION. The word types of the core and their plainest arithmetic (spec rules R7, R8). -/

namespace Sys2Proof

/-- An 8-bit unsigned value: a general register, a timer, a memory cell (R8, R21, R50). -/
abbrev Byte := BitVec 8

/-- A 16-bit unsigned value: `I`, `pc`, a return address, an instruction word (R8, R24, R25, R70). -/
abbrev Word := BitVec 16

/-- `trunc_8` of R8: an unbounded non-negative integer narrowed modulo 256. -/
def trunc8 (n : Nat) : Byte := BitVec.ofNat 8 n

/-- `trunc_16` of R8: an unbounded non-negative integer narrowed modulo 65536. -/
def trunc16 (n : Nat) : Word := BitVec.ofNat 16 n

/-- R8: "A Boolean used as a number is 1 for true and 0 for false", as the byte a flag is written as. -/
def boolByte (b : Bool) : Byte := if b then 1 else 0

end Sys2Proof
end

