-- ==== Sys2Proof/Config.lean ====
section
/-! DEFINITION. What is fixed for the life of the core (R5, R6, R39, R247) and the host-supplied inputs the spec leaves
free (R40, R225, R226). -/

namespace Sys2Proof

/-- The 80-byte font table, 16 glyphs of 5 bytes each (R247). -/
abbrev Font := Vector Byte 80

/-- The configuration of one core, fixed for a run (R6, R39, R247).  It stands in `State` as plain data, so a statement
about every state holds for both shift variants and for every font; no operation changes it. -/
structure Config where
  /-- SHIFT_USES_VY (R6, R132): true when 8XY6 and 8XYE copy VY into VX before shifting. -/
  shiftUsesVy : Bool
  /-- FONT[0..79] (R247), a named parameter of the core. -/
  font : Font
  deriving DecidableEq, Repr

namespace Config

/-- MEM_SIZE (R5): addresses 0x000 to 0xFFF. -/
abbrev memSize : Nat := 4096

/-- The highest valid address (R51). -/
abbrev lastAddress : Nat := 0xFFF

/-- PROG_BASE (R5): the reset value of pc and the ROM's load address. -/
abbrev progBase : Nat := 0x200

/-- MAX_ROM (R5). -/
abbrev maxRom : Nat := 3584

/-- FONT_BASE (R5, R39; conflict C2).  DESIGN CHOICE of the spec (D1): log entry 5. -/
abbrev fontBase : Nat := 0x050

/-- Bytes per glyph (R247). -/
abbrev glyphBytes : Nat := 5

/-- FONT_SIZE (R5): 16 glyphs of 5 bytes. -/
abbrev fontSize : Nat := 80

/-- STACK_DEPTH (R26, R39).  DESIGN CHOICE of the spec (D2): log entry 6. -/
abbrev stackDepth : Nat := 16

/-- FREE VALUE (R40, R225): the keypad vector the host supplies with its n-th operation when the agenda of `State`
names no operation.  Opaque: nothing can be proved of it. -/
opaque freeKeys : Nat → BitVec 16

/-- FREE VALUE (R40, R226): the random byte the host supplies with its n-th operation when the agenda of `State` names
no operation.  "the core places no constraint on the sequence of these bytes". -/
opaque freeByte : Nat → Byte

end Config

end Sys2Proof
end

