-- ==== Sys2Proof/Syntax.lean ====
section
/-! DEFINITION. The instructions: one constructor per row of spec/opcode_table.json (R74), with the operands of R11 and
R72, and each row's mnemonic, match and mask. -/

namespace Sys2Proof

/-- A general register number 0 to 15: the operand X or Y of R11. -/
abbrev Reg := Fin 16

/-- The 34 instructions of R74.  `x` and `y` are register numbers, `nn` an 8-bit immediate, `nnn` a 12-bit address, `n`
the row count of a sprite (R72). -/
inductive Instr where
  /-- 00E0 (R100). -/
  | cls
  /-- 00EE (R110). -/
  | ret
  /-- 1NNN (R111). -/
  | jp (nnn : BitVec 12)
  /-- 2NNN (R112). -/
  | call (nnn : BitVec 12)
  /-- 3XNN (R113). -/
  | seImm (x : Reg) (nn : Byte)
  /-- 4XNN (R114). -/
  | sneImm (x : Reg) (nn : Byte)
  /-- 5XY0 (R115). -/
  | seReg (x y : Reg)
  /-- 6XNN (R133). -/
  | ldImm (x : Reg) (nn : Byte)
  /-- 7XNN (R134). -/
  | addImm (x : Reg) (nn : Byte)
  /-- 8XY0 (R135). -/
  | ldReg (x y : Reg)
  /-- 8XY1 (R136). -/
  | orReg (x y : Reg)
  /-- 8XY2 (R137). -/
  | andReg (x y : Reg)
  /-- 8XY3 (R138). -/
  | xorReg (x y : Reg)
  /-- 8XY4 (R139). -/
  | addReg (x y : Reg)
  /-- 8XY5 (R140). -/
  | sub (x y : Reg)
  /-- 8XY6 (R141). -/
  | shr (x y : Reg)
  /-- 8XY7 (R142). -/
  | subn (x y : Reg)
  /-- 8XYE (R143). -/
  | shl (x y : Reg)
  /-- 9XY0 (R116). -/
  | sneReg (x y : Reg)
  /-- ANNN (R160). -/
  | ldI (nnn : BitVec 12)
  /-- BNNN (R117). -/
  | jpV0 (nnn : BitVec 12)
  /-- CXNN (R144). -/
  | rnd (x : Reg) (nn : Byte)
  /-- DXYN (R101). -/
  | drw (x y : Reg) (n : Nat)
  /-- EX9E (R180). -/
  | skp (x : Reg)
  /-- EXA1 (R181). -/
  | sknp (x : Reg)
  /-- FX07 (R182). -/
  | ldVxDt (x : Reg)
  /-- FX0A (R183). -/
  | ldVxK (x : Reg)
  /-- FX15 (R184). -/
  | ldDtVx (x : Reg)
  /-- FX18 (R185). -/
  | ldStVx (x : Reg)
  /-- FX1E (R161). -/
  | addIVx (x : Reg)
  /-- FX29 (R162). -/
  | ldFVx (x : Reg)
  /-- FX33 (R163). -/
  | ldBVx (x : Reg)
  /-- FX55 (R164). -/
  | ldMemVx (x : Reg)
  /-- FX65 (R165). -/
  | ldVxMem (x : Reg)
  deriving DecidableEq, Repr

/-- The "spec name" of an instruction's row in R74. -/
def Instr.mnemonic : Instr → String
  | .cls => "CLS"
  | .ret => "RET"
  | .jp _ => "JP"
  | .call _ => "CALL"
  | .seImm _ _ => "SE_IMM"
  | .sneImm _ _ => "SNE_IMM"
  | .seReg _ _ => "SE_REG"
  | .ldImm _ _ => "LD_IMM"
  | .addImm _ _ => "ADD_IMM"
  | .ldReg _ _ => "LD_REG"
  | .orReg _ _ => "OR"
  | .andReg _ _ => "AND"
  | .xorReg _ _ => "XOR"
  | .addReg _ _ => "ADD_REG"
  | .sub _ _ => "SUB"
  | .shr _ _ => "SHR"
  | .subn _ _ => "SUBN"
  | .shl _ _ => "SHL"
  | .sneReg _ _ => "SNE_REG"
  | .ldI _ => "LD_I"
  | .jpV0 _ => "JP_V0"
  | .rnd _ _ => "RND"
  | .drw _ _ _ => "DRW"
  | .skp _ => "SKP"
  | .sknp _ => "SKNP"
  | .ldVxDt _ => "LD_VX_DT"
  | .ldVxK _ => "LD_VX_K"
  | .ldDtVx _ => "LD_DT_VX"
  | .ldStVx _ => "LD_ST_VX"
  | .addIVx _ => "ADD_I_VX"
  | .ldFVx _ => "LD_F_VX"
  | .ldBVx _ => "LD_B_VX"
  | .ldMemVx _ => "LD_MEM_VX"
  | .ldVxMem _ => "LD_VX_MEM"

end Sys2Proof
end

