-- ==== Sys2Proof/Machine/Memory.lean ====
section
/-! DEFINITION. The 4096-byte memory (R50-R60) as a list of cells in one canonical form, and the default font bytes
(R247). -/

namespace Sys2Proof.Machine

/-- The bytes of the conventional CHIP-8 font, glyphs 0 to 7 (R247).  PRESUMED: from general knowledge, not in the
source (log entry 2). -/
def fontLow : List Byte :=
  [0xF0, 0x90, 0x90, 0x90, 0xF0, 0x20, 0x60, 0x20, 0x20, 0x70, 0xF0, 0x10, 0xF0, 0x80, 0xF0, 0xF0, 0x10, 0xF0, 0x10, 0xF0,
   0x90, 0x90, 0xF0, 0x10, 0x10, 0xF0, 0x80, 0xF0, 0x10, 0xF0, 0xF0, 0x80, 0xF0, 0x90, 0xF0, 0xF0, 0x10, 0x20, 0x40, 0x40]

/-- The bytes of the conventional CHIP-8 font, glyphs 8 to F (R247).  PRESUMED (log entry 2). -/
def fontHigh : List Byte :=
  [0xF0, 0x90, 0xF0, 0x90, 0xF0, 0xF0, 0x90, 0xF0, 0x10, 0xF0, 0xF0, 0x90, 0xF0, 0x90, 0x90, 0xE0, 0x90, 0xE0, 0x90, 0xE0,
   0xF0, 0x80, 0x80, 0x80, 0xF0, 0xE0, 0x90, 0x90, 0x90, 0xE0, 0xF0, 0x80, 0xF0, 0x80, 0xF0, 0xF0, 0x80, 0xF0, 0x80, 0x80]

/-- The default value of the parameter FONT (R247).  PRESUMED (log entry 2). -/
def defaultFont : Font := ⟨⟨fontLow ++ fontHigh⟩, rfl⟩

/-- What an unlisted address reads as: the contents R241 and R242 give memory after a reset, the ROM apart.  The font
stands at 0x050-0x09F and every other byte is 0x00. -/
def resetByte (font : Font) (a : Nat) : Byte :=
  if h : Config.fontBase ≤ a ∧ a < Config.fontBase + Config.fontSize then
    font[a - Config.fontBase]'(by unfold Config.fontBase Config.fontSize at *; omega)
  else 0

/-- Memory as (address, byte) pairs, addresses strictly rising, no entry equal to what its address reads as unlisted. -/
abbrev Memory := List Host.Cell

namespace Memory

/-- The byte listed for address `a`, if any. -/
def find (a : Nat) : Memory → Option Byte
  | [] => none
  | (b, v) :: rest => if a = b then some v else find a rest

/-- `MemRead(a, 1)` (R53): the byte at `a`.  No side effect. -/
def read (font : Font) (m : Memory) (a : Nat) : Byte := (find a m).getD (resetByte font a)

/-- Put `v` at `a`, keeping the addresses rising. -/
def insert (a : Nat) (v : Byte) : Memory → Memory
  | [] => [(a, v)]
  | (b, w) :: rest =>
    if a < b then (a, v) :: (b, w) :: rest
    else if a = b then (a, v) :: rest
    else (b, w) :: insert a v rest

/-- Take the entry of `a` out of the list. -/
def erase (a : Nat) (m : Memory) : Memory := m.filter (fun c => c.1 != a)

/-- `MemWrite(a, 1, v)` (R54): that cell alone changes.  Writing what an unlisted address reads as takes the entry
out, so equal memories are equal lists. -/
def write (font : Font) (a : Nat) (v : Byte) (m : Memory) : Memory :=
  if v = resetByte font a then erase a m else insert a v m

/-- Write the bytes of a list at ascending addresses from `a` on.  The addresses differ, so the order in which the
writes are made has no effect (R57). -/
def writeBytes (font : Font) (a : Nat) : List Byte → Memory → Memory
  | [], m => m
  | v :: vs, m => write font a v (writeBytes font (a + 1) vs m)

/-- The addresses of a list rise strictly. -/
def rising : Memory → Bool
  | [] => true
  | c :: rest => rest.all (fun d => decide (c.1 < d.1)) && rising rest

/-- The canonical form: rising addresses, every address one of R51's, and no entry that says what an unlisted address
already reads as. -/
def wf (font : Font) (m : Memory) : Bool :=
  rising m && m.all (fun c => decide (c.1 ≤ Config.lastAddress) && c.2 != resetByte font c.1)

end Memory

end Sys2Proof.Machine
end

