-- ==== Sys2Proof/Machine/State.lean ====
section
/-! DEFINITION. The state of the core: the fourteen elements of R20, its configuration (R39), and the model's own fields
for the host's side of the ports (R40, R202, R218, R229). -/

namespace Sys2Proof.Machine

/-- The run state (R35). -/
inductive RunState where
  /-- Before the first Load. -/
  | uninitialized
  /-- After a Load or a Restart, before the first Step. -/
  | loaded
  /-- Executing. -/
  | running
  /-- After a fatal error. -/
  | halted
  deriving DecidableEq, Repr

/-- The fault causes of R201. -/
inductive FaultCause where
  /-- Code 0: no fault recorded. -/
  | none
  /-- Code 1: 00EE with an empty stack. -/
  | stackUnderflow
  /-- Code 2: 2NNN with a full stack. -/
  | stackOverflow
  /-- Code 3: pc + 1 above 0xFFF. -/
  | fetchBounds
  /-- Code 4: a data access above 0xFFF. -/
  | dataBounds
  deriving DecidableEq, Repr

/-- The cause codes of R201's table. -/
def FaultCause.code : FaultCause → Nat
  | .none => 0
  | .stackUnderflow => 1
  | .stackOverflow => 2
  | .fetchBounds => 3
  | .dataBounds => 4

/-- The results an operation returns to the host (R202). -/
inductive OpResult where
  | ok
  | unmapped
  | fault (cause : FaultCause)
  | rejectedNotLoaded
  | rejectedHalted
  | loadTooLarge
  deriving DecidableEq, Repr

/-- The one event of the diagnostic port (R229). -/
inductive DiagEvent where
  | unmapped (pc op : Word)
  deriving DecidableEq, Repr

/-- The inputs of one Step (R40): the keypad vector, bit k set while key k is held, and one random byte. -/
structure StepInput where
  keys : BitVec 16
  rnd : Byte
  deriving DecidableEq, Repr

/-- The four operations the host drives the core through (R2, R218). -/
inductive HostOp where
  | step (input : StepInput)
  | tickTimers
  | load (rom : List Byte)
  | restart
  deriving DecidableEq, Repr

/-- The framebuffer (R33, R34): 32 rows of 64 one-bit pixels, `FB[y][x]`. -/
abbrev Framebuffer := Vector (Vector Bool 64) 32

/-- The core's state: "exactly the elements of this table" (R20). -/
structure Arch where
  /-- V0 to VF (R21). -/
  v : Vector Byte 16
  /-- The index register I (R24). -/
  i : Word
  /-- The program counter (R25). -/
  pc : Word
  /-- The call stack's entries, dead ones included (R26, R28). -/
  stack : Vector Word 16
  /-- The number of live entries, 0 to STACK_DEPTH (R26). -/
  sp : Fin 17
  /-- The delay timer DT (R30). -/
  dt : Byte
  /-- The sound timer ST (R31). -/
  st : Byte
  /-- The word of the current or most recent step (R32). -/
  opcode : Word
  /-- mem[0..4095] (R38, R50). -/
  mem : Memory
  /-- The framebuffer FB (R33). -/
  fb : Framebuffer
  /-- The run state (R35). -/
  run : RunState
  /-- The fault record's cause (R36). -/
  faultCause : FaultCause
  /-- The fault record's pc (R36). -/
  faultPc : Word
  /-- The retained ROM image (R37). -/
  rom : List Byte
  deriving DecidableEq, Repr

/-- The machine: the core's state, its configuration, and the host's side of its ports.  The fields after `cfg` are the
MODEL'S OWN, not the spec's (log entry 3). -/
structure State extends Arch where
  /-- The configuration (R39). -/
  cfg : Config
  /-- The keypad vector sampled for the current step (R40, R225); the next Step overwrites it before any read. -/
  keys : BitVec 16
  /-- The random byte sampled for the current step (R40, R226); the next Step overwrites it before any read. -/
  rnd : Byte
  /-- The operations the host will call next, the first to come first (R218). -/
  agenda : List HostOp
  /-- How many operations the host has called; it numbers the free inputs. -/
  calls : Nat
  /-- The result the last operation returned (R202). -/
  result : OpResult
  /-- The diagnostic event the last operation emitted, if any (R229). -/
  diag : Option DiagEvent
  deriving DecidableEq, Repr

/-- Reasons the model's step could stop.  None: every operation of the core returns (R202), and a fatal error is a
next state, the Halted one (R203). -/
inductive Fault
  deriving DecidableEq, Repr

/-- Reasons a meaning could refuse. -/
inductive Refusal where
  /-- Raised by an arm of `exec` whose instruction has no meaning yet, and by nothing else; no arm is left so.  Safe:
  it only stops a run. -/
  | notModelled (mnemonic : String)
  deriving DecidableEq, Repr

/-- The configuration at its default values (R6, R247). -/
def defaultConfig : Config := { shiftUsesVy := true, font := defaultFont }

/-- A clear screen (R241). -/
def clearScreen : Framebuffer := Vector.replicate 32 (Vector.replicate 64 false)

/-- The machine right after the reset of R241 with no ROM byte (L = 0), the "load value" column of R20.  Log entry 1
says why this state and not the power-on one; log entry 3 names the values of the model's own fields. -/
def State.reset : State :=
  { v := Vector.replicate 16 0
    i := 0
    pc := 0x0200
    stack := Vector.replicate 16 0
    sp := 0
    dt := 0
    st := 0
    opcode := 0
    mem := []
    fb := clearScreen
    run := .loaded
    faultCause := .none
    faultPc := 0
    rom := []
    cfg := defaultConfig
    keys := 0
    rnd := 0
    agenda := []
    calls := 0
    result := .ok
    diag := none }

/-- R246: what holds of the core before any Load.  Every element it does not name is unspecified and so left free. -/
def State.isPowerOn (s : State) : Bool :=
  s.run == .uninitialized && s.faultCause == .none && s.faultPc == 0 && s.rom == []

end Sys2Proof.Machine
end

