-- ==== Sys2Proof/Machine/Ops.lean ====
section
/-! DEFINITION. The named operations over the state: registers, memory, the call stack, the framebuffer, fetching, and
taking a fault (R203).  There is no return from a fault (R208); Load and Restart, which leave Halted, are in
Machine/Lifecycle.lean. -/

namespace Sys2Proof.Machine

namespace State

/-- `V[k]` (R9, R21). -/
def reg (s : State) (k : Reg) : Byte := s.v[k.val]

/-- `V[k] <- b` (R9, R21).  Every one of the sixteen is writable. -/
def setReg (s : State) (k : Reg) (b : Byte) : State := { s with v := s.v.set k.val b }

/-- `I <- w` (R9, R24). -/
def setI (s : State) (w : Word) : State := { s with i := w }

/-- `pc <- w` (R9, R25). -/
def setPc (s : State) (w : Word) : State := { s with pc := w }

/-- `DT <- b` (R9, R30). -/
def setDt (s : State) (b : Byte) : State := { s with dt := b }

/-- `ST <- b` (R9, R31). -/
def setSt (s : State) (b : Byte) : State := { s with st := b }

/-- `mem[a]` (R53). -/
def memByte (s : State) (a : Nat) : Byte := Memory.read s.cfg.font s.mem a

/-- `MemWrite(a, 1, b)` (R54). -/
def memWrite (s : State) (a : Nat) (b : Byte) : State := { s with mem := Memory.write s.cfg.font a b s.mem }

/-- The framebuffer replaced. -/
def setFb (s : State) (f : Framebuffer) : State := { s with fb := f }

/-- The run state replaced. -/
def setRun (s : State) (r : RunState) : State := { s with run := r }

/-- The word of this step kept in the opcode register (R32). -/
def setOpcode (s : State) (w : Word) : State := { s with opcode := w }

/-- What the operation returns to the host (R202). -/
def answer (s : State) (r : OpResult) : State := { s with result := r }

/-- One event on the diagnostic port (R229). -/
def emit (s : State) (e : DiagEvent) : State := { s with diag := some e }

/-- `raise Fault(c)` (R203): the fault record, Halted, and the result.  Every meaning calls it on the state it was
given, before any write. -/
def raiseFault (s : State) (c : FaultCause) : State :=
  { s with faultCause := c, faultPc := s.pc, run := .halted, result := .fault c }

/-- `Push(w)` when the stack is not full, none when it is (R27). -/
def push (s : State) (w : Word) : Option State :=
  if h : s.sp.val < 16 then
    some { s with stack := s.stack.set s.sp.val w, sp := ⟨s.sp.val + 1, by omega⟩ }
  else none

/-- `Pop()` when the stack is not empty, with the popped word; none when it is (R28).  The dead entry keeps its
value. -/
def pop (s : State) : Option (Word × State) :=
  if h : 0 < s.sp.val then
    some (s.stack[s.sp.val - 1]'(by omega), { s with sp := ⟨s.sp.val - 1, by omega⟩ })
  else none

/-- The word at pc and pc + 1, big-endian, when both are in memory (R62). -/
def fetchWord (s : State) : Option Word :=
  if s.pc.toNat + 1 ≤ Config.lastAddress then
    some (wordOfBytes (s.memByte s.pc.toNat) (s.memByte (s.pc.toNat + 1)))
  else none

/-- The sound gate (R221). -/
def soundGate (s : State) : Bool := s.st != 0

end State

/-- `FB[y][x]` (R34). -/
def Framebuffer.pixel (f : Framebuffer) (y : Fin 32) (x : Fin 64) : Bool := (f[y.val])[x.val]

/-- `FB[y][x] <- FB[y][x] ^ 1` (R101). -/
def Framebuffer.flip (f : Framebuffer) (y : Fin 32) (x : Fin 64) : Framebuffer :=
  f.set y.val ((f[y.val]).set x.val (!f.pixel y x))

/-- A plot under way: the framebuffer so far and whether a set pixel has been cleared (R101). -/
structure Plot where
  fb : Framebuffer
  collided : Bool
  deriving DecidableEq, Repr

/-- The column of bit c of a sprite row: `(xs + c) mod 64` (R101). -/
def columnOf (xs : Byte) (c : Nat) : Fin 64 := Fin.ofNat 64 (xs.toNat + c)

/-- The row of sprite row r: `(ys + r) mod 32` (R101). -/
def rowOf (ys : Byte) (r : Nat) : Fin 32 := Fin.ofNat 32 (ys.toNat + r)

/-- One set sprite bit at (x, y) (R101): note a collision, then toggle. -/
def Plot.toggle (p : Plot) (y : Fin 32) (x : Fin 64) : Plot :=
  { fb := p.fb.flip y x, collided := p.collided || p.fb.pixel y x }

/-- The inner loop of R101: the eight bits of row r, bit 7 the leftmost (R103). -/
def Plot.row (xs ys b : Byte) (r : Nat) (p : Plot) : Plot :=
  (List.range 8).foldl (fun p c => if b.getLsbD (7 - c) then p.toggle (rowOf ys r) (columnOf xs c) else p) p

/-- The outer loop of R101: rows 0 to n - 1 of the sprite whose row r is `sprite r`. -/
def Plot.sprite (xs ys : Byte) (sprite : Nat → Byte) (n : Nat) (p : Plot) : Plot :=
  (List.range n).foldl (fun p r => p.row xs ys (sprite r) r) p

end Sys2Proof.Machine
end

