-- ==== Sys2Proof/Machine/Flags.lean ====
section
/-! DEFINITION. Every flag computation of the spec, as the byte written to VF (R22). -/

namespace Sys2Proof.Machine

/-- VF's number (R22). -/
def flagReg : Reg := 15

/-- `V[0xF] <- f` (R22). -/
def State.setFlag (s : State) (f : Byte) : State := s.setReg flagReg f

/-- 8XY4: the carry out of bit 7, `s > 0xFF` of the 9-bit sum (R139). -/
def carryFlag (a b : Byte) : Byte := boolByte (decide (a.toNat + b.toNat > 0xFF))

/-- 8XY5 and 8XY7: the strict unsigned comparison `a > b` (R140, R142). -/
def greaterFlag (a b : Byte) : Byte := boolByte (decide (a.toNat > b.toNat))

/-- 8XY6: bit 0 of the value being shifted (R141). -/
def lowBitFlag (a : Byte) : Byte := boolByte (a.getLsbD 0)

/-- 8XYE: bit 7 of the value being shifted (R143). -/
def highBitFlag (a : Byte) : Byte := boolByte (a.getLsbD 7)

/-- DXYN: at least one pixel went from 1 to 0 (R101). -/
def collisionFlag (collided : Bool) : Byte := boolByte collided

end Sys2Proof.Machine
end

