-- ==== Sys2Proof/Machine/Operands.lean ====
section
/-! DEFINITION. The operand forms: the program counter's successors (R82), the 12-bit address (R72), effective addresses
and their bounds (R52, R56), the decimal digits (R163), the keypad (R225). -/

namespace Sys2Proof.Machine

namespace State

/-- `next`, `trunc_16(pc + 2)` (R82). -/
def nextPc (s : State) : Word := trunc16 (s.pc.toNat + 2)

/-- The target of a taken skip, `trunc_16(pc + 4)` (R82). -/
def skipPc (s : State) : Word := trunc16 (s.pc.toNat + 4)

/-- `pc <- next` (R82). -/
def advance (s : State) : State := s.setPc s.nextPc

/-- A conditional skip (R82). -/
def skipIf (s : State) (c : Bool) : State := s.setPc (if c then s.skipPc else s.nextPc)

/-- The effective address `I + k`, an unbounded integer (R52). -/
def dataAddress (s : State) (k : Nat) : Nat := s.i.toNat + k

/-- The bytes `I .. I + n - 1` all lie in memory (R52); n = 0 uses no address (R104). -/
def dataInBounds (s : State) (n : Nat) : Bool := decide (n = 0 ∨ s.dataAddress (n - 1) ≤ Config.lastAddress)

/-- `KeyDown(k)` for the number k in a register: a number above 15 names no key (R180, R225). -/
def keyHeld (s : State) (k : Byte) : Bool := decide (k.toNat ≤ 15) && s.keys.getLsbD k.toNat

/-- The least k with `KeyDown(k)`, if any key is held (R183). -/
def leastKey (s : State) : Option (Fin 16) := (List.finRange 16).find? (fun k => s.keys.getLsbD k.val)

end State

/-- `zext_16(NNN)` (R72). -/
def targetOf (nnn : BitVec 12) : Word := nnn.setWidth 16

/-- The register of index i in a loop `for i in 0 .. X` (R164, R165). -/
def regOf (i : Nat) : Reg := Fin.ofNat 16 i

/-- `v div 100` (R163). -/
def hundreds (v : Byte) : Byte := trunc8 (v.toNat / 100)

/-- `(v div 10) mod 10` (R163). -/
def tens (v : Byte) : Byte := trunc8 (v.toNat / 10 % 10)

/-- `v mod 10` (R163). -/
def ones (v : Byte) : Byte := trunc8 (v.toNat % 10)

/-- The address of the glyph for v, `trunc_16(FONT_BASE + 5 * v)`, unmasked (R162). -/
def glyphAddress (v : Byte) : Word := trunc16 (Config.fontBase + Config.glyphBytes * v.toNat)

end Sys2Proof.Machine
end

