-- ==== Sys2Proof/Machine/Alu.lean ====
section
/-! DEFINITION. The register and arithmetic family: 6XNN, 7XNN, 8XY0-8XYE, CXNN (42_alu.md).  Statements run in the
order the rules write them, and each reads the registers as the earlier ones left them (R10, R131). -/

namespace Sys2Proof.Machine

/-- LD_IMM (R133). -/
def execLdImm (x : Reg) (nn : Byte) (s : State) : Host.Outcome State Fault Refusal := .next (s.setReg x nn).advance

/-- ADD_IMM (R134). -/
def execAddImm (x : Reg) (nn : Byte) (s : State) : Host.Outcome State Fault Refusal :=
  .next (s.setReg x (trunc8 ((s.reg x).toNat + nn.toNat))).advance

/-- LD_REG (R135). -/
def execLdReg (x y : Reg) (s : State) : Host.Outcome State Fault Refusal := .next (s.setReg x (s.reg y)).advance

/-- OR (R136). -/
def execOrReg (x y : Reg) (s : State) : Host.Outcome State Fault Refusal :=
  .next (s.setReg x (s.reg x ||| s.reg y)).advance

/-- AND (R137). -/
def execAndReg (x y : Reg) (s : State) : Host.Outcome State Fault Refusal :=
  .next (s.setReg x (s.reg x &&& s.reg y)).advance

/-- XOR (R138). -/
def execXorReg (x y : Reg) (s : State) : Host.Outcome State Fault Refusal :=
  .next (s.setReg x (s.reg x ^^^ s.reg y)).advance

/-- ADD_REG (R139): the sum is written, then the carry. -/
def execAddReg (x y : Reg) (s : State) : Host.Outcome State Fault Refusal :=
  .next ((s.setReg x (trunc8 ((s.reg x).toNat + (s.reg y).toNat))).setFlag (carryFlag (s.reg x) (s.reg y))).advance

/-- `V[X] <- trunc_8(V[a] - V[b] + 256)` on the registers as they now stand (R140, R142). -/
def State.subInto (s : State) (x a b : Reg) : State :=
  s.setReg x (trunc8 ((s.reg a).toNat + 256 - (s.reg b).toNat))

/-- SUB (R140): the comparison is taken first, then VF is written, then VX from the registers as VF's write left
them. -/
def execSub (x y : Reg) (s : State) : Host.Outcome State Fault Refusal :=
  .next ((s.setFlag (greaterFlag (s.reg x) (s.reg y))).subInto x x y).advance

/-- The copy of 8XY6 and 8XYE, made when SHIFT_USES_VY is true (R132). -/
def State.shiftSource (s : State) (x y : Reg) : State := if s.cfg.shiftUsesVy then s.setReg x (s.reg y) else s

/-- `V[X] <- V[X] >> 1` on the registers as they now stand (R141). -/
def State.shiftRight (s : State) (x : Reg) : State := s.setReg x (trunc8 ((s.reg x).toNat / 2))

/-- `V[X] <- trunc_8(V[X] << 1)` on the registers as they now stand (R143). -/
def State.shiftLeft (s : State) (x : Reg) : State := s.setReg x (trunc8 ((s.reg x).toNat * 2))

/-- SHR (R141). -/
def execShr (x y : Reg) (s : State) : Host.Outcome State Fault Refusal :=
  .next (((s.shiftSource x y).setFlag (lowBitFlag ((s.shiftSource x y).reg x))).shiftRight x).advance

/-- SUBN (R142). -/
def execSubn (x y : Reg) (s : State) : Host.Outcome State Fault Refusal :=
  .next ((s.setFlag (greaterFlag (s.reg y) (s.reg x))).subInto x y x).advance

/-- SHL (R143). -/
def execShl (x y : Reg) (s : State) : Host.Outcome State Fault Refusal :=
  .next (((s.shiftSource x y).setFlag (highBitFlag ((s.shiftSource x y).reg x))).shiftLeft x).advance

/-- RND (R144): `RandByte()` is the step's random input. -/
def execRnd (x : Reg) (nn : Byte) (s : State) : Host.Outcome State Fault Refusal :=
  .next (s.setReg x (s.rnd &&& nn)).advance

end Sys2Proof.Machine
end

