-- ==== Sys2Proof/Machine/Display.lean ====
section
/-! DEFINITION. The display family: 00E0 and DXYN (40_display.md). -/

namespace Sys2Proof.Machine

/-- CLS (R100). -/
def execCls (s : State) : Host.Outcome State Fault Refusal := .next (s.setFb clearScreen).advance

/-- The plot of DXYN at the state it starts from: n bytes at I, drawn at (VX, VY) (R101, R102). -/
def drawAt (s : State) (x y : Reg) (n : Nat) : Plot :=
  Plot.sprite (s.reg x) (s.reg y) (fun r => s.memByte (s.dataAddress r)) n ⟨s.fb, false⟩

/-- DRW (R101, R104): the bounds check, the plot, then VF. -/
def execDrw (x y : Reg) (n : Nat) (s : State) : Host.Outcome State Fault Refusal :=
  .next (if s.dataInBounds n then
    ((s.setFb (drawAt s x y n).fb).setFlag (collisionFlag (drawAt s x y n).collided)).advance
  else s.raiseFault .dataBounds)

end Sys2Proof.Machine
end

