-- ==== Sys2Proof/Machine/IndexMemory.lean ====
section
/-! DEFINITION. The index-register and memory family: ANNN, FX1E, FX29, FX33, FX55, FX65 (43_index_memory.md).  Every
bounds check is made before the first access (R52). -/

namespace Sys2Proof.Machine

/-- LD_I (R160). -/
def execLdI (nnn : BitVec 12) (s : State) : Host.Outcome State Fault Refusal := .next (s.setI (targetOf nnn)).advance

/-- ADD_I_VX (R161): 16-bit, no flag. -/
def execAddIVx (x : Reg) (s : State) : Host.Outcome State Fault Refusal :=
  .next (s.setI (trunc16 (s.i.toNat + (s.reg x).toNat))).advance

/-- LD_F_VX (R162). -/
def execLdFVx (x : Reg) (s : State) : Host.Outcome State Fault Refusal :=
  .next (s.setI (glyphAddress (s.reg x))).advance

/-- The three stores of FX33, in order (R163). -/
def State.storeDigits (s : State) (v : Byte) : State :=
  ((s.memWrite (s.dataAddress 0) (hundreds v)).memWrite (s.dataAddress 1) (tens v)).memWrite (s.dataAddress 2) (ones v)

/-- LD_B_VX (R163). -/
def execLdBVx (x : Reg) (s : State) : Host.Outcome State Fault Refusal :=
  .next (if s.dataInBounds 3 then (s.storeDigits (s.reg x)).advance else s.raiseFault .dataBounds)

/-- The loop of FX55 over i in 0 .. n - 1 (R164). -/
def State.storeRegs (s : State) (n : Nat) : State :=
  (List.range n).foldl (fun t i => t.memWrite (t.dataAddress i) (t.reg (regOf i))) s

/-- The loop of FX65 over i in 0 .. n - 1 (R165). -/
def State.loadRegs (s : State) (n : Nat) : State :=
  (List.range n).foldl (fun t i => t.setReg (regOf i) (t.memByte (t.dataAddress i))) s

/-- LD_MEM_VX (R164). -/
def execLdMemVx (x : Reg) (s : State) : Host.Outcome State Fault Refusal :=
  .next (if s.dataInBounds (x.val + 1) then (s.storeRegs (x.val + 1)).advance else s.raiseFault .dataBounds)

/-- LD_VX_MEM (R165). -/
def execLdVxMem (x : Reg) (s : State) : Host.Outcome State Fault Refusal :=
  .next (if s.dataInBounds (x.val + 1) then (s.loadRegs (x.val + 1)).advance else s.raiseFault .dataBounds)

end Sys2Proof.Machine
end

