-- ==== Sys2Proof/Machine/KeypadTimers.lean ====
section
/-! DEFINITION. The keypad and timer family: EX9E, EXA1, FX07, FX0A, FX15, FX18 (44_keypad_timers.md). -/

namespace Sys2Proof.Machine

/-- SKP (R180). -/
def execSkp (x : Reg) (s : State) : Host.Outcome State Fault Refusal := .next (s.skipIf (s.keyHeld (s.reg x)))

/-- SKNP (R181). -/
def execSknp (x : Reg) (s : State) : Host.Outcome State Fault Refusal := .next (s.skipIf (!s.keyHeld (s.reg x)))

/-- LD_VX_DT (R182). -/
def execLdVxDt (x : Reg) (s : State) : Host.Outcome State Fault Refusal := .next (s.setReg x s.dt).advance

/-- LD_VX_K (R183): with no key held, pc stays and nothing else changes. -/
def execLdVxK (x : Reg) (s : State) : Host.Outcome State Fault Refusal :=
  .next (match s.leastKey with
    | some k => (s.setReg x (trunc8 k.val)).advance
    | none => s.setPc s.pc)

/-- LD_DT_VX (R184). -/
def execLdDtVx (x : Reg) (s : State) : Host.Outcome State Fault Refusal := .next (s.setDt (s.reg x)).advance

/-- LD_ST_VX (R185). -/
def execLdStVx (x : Reg) (s : State) : Host.Outcome State Fault Refusal := .next (s.setSt (s.reg x)).advance

end Sys2Proof.Machine
end

