-- ==== Sys2Proof/Machine/Lifecycle.lean ====
section
/-! DEFINITION. The host operations other than Step: TickTimers (R215, R220), Load (R240), Restart (R244), and the reset
both Load and Restart make (R241).  Load and Restart are the only ways out of Halted (R207). -/

namespace Sys2Proof.Machine

namespace State

/-- The reset of R241 from the ROM image `bytes`: every element of the core's state but `rom` itself. -/
def resetFrom (s : State) (bytes : List Byte) : State :=
  { s with
    v := Vector.replicate 16 0
    i := 0
    pc := trunc16 Config.progBase
    stack := Vector.replicate 16 0
    sp := 0
    dt := 0
    st := 0
    opcode := 0
    mem := Memory.writeBytes s.cfg.font Config.progBase bytes []
    fb := clearScreen
    run := .loaded
    faultCause := .none
    faultPc := 0 }

/-- Load (R240), accepted in every run state (R217). -/
def loadRom (s : State) (bytes : List Byte) : State :=
  if bytes.length > Config.maxRom then s.answer .loadTooLarge
  else (State.resetFrom { s with rom := bytes } bytes).answer .ok

/-- Restart (R244), accepted once a ROM has been loaded (R216). -/
def restart (s : State) : State :=
  match s.run with
  | .uninitialized => s.answer .rejectedNotLoaded
  | .loaded | .running | .halted => (s.resetFrom s.rom).answer .ok

/-- A timer's decrement: "if DT > 0 then DT <- DT - 1" (R220). -/
def countDown (b : Byte) : Byte := if b.toNat > 0 then trunc8 (b.toNat - 1) else b

/-- TickTimers (R215, R220). -/
def tickTimers (s : State) : State :=
  match s.run with
  | .uninitialized => s.answer .rejectedNotLoaded
  | .halted => s.answer .rejectedHalted
  | .loaded | .running => ((s.setDt (countDown s.dt)).setSt (countDown s.st)).answer .ok

end State

end Sys2Proof.Machine
end

