-- ==== Sys2Proof/Machine/Cycle.lean ====
section
/-! DEFINITION. The step cycle (R81), the unmapped word (R77), and which host operation comes next (R218). -/

namespace Sys2Proof.Machine

namespace State

/-- Executing an unmapped opcode (R77): a diagnostic, and pc advances. -/
def runUnmapped (s : State) (op : Word) : State := ((s.emit (.unmapped s.pc op)).answer .unmapped).advance

/-- R81 once the Step is accepted: fetch, decode, execute. -/
def cycle (s : State) : Host.Outcome State Fault Refusal :=
  match s.fetchWord with
  | none => .next (s.raiseFault .fetchBounds)
  | some op =>
    match decodeWord op with
    | some i => exec i ((s.setOpcode op).answer .ok)
    | none => .next ((s.setOpcode op).runUnmapped op)

/-- R81, with the acceptance checks of R214. -/
def stepOp (s : State) : Host.Outcome State Fault Refusal :=
  match s.run with
  | .uninitialized => .next (s.answer .rejectedNotLoaded)
  | .halted => .next (s.answer .rejectedHalted)
  | .loaded | .running => (s.setRun .running).cycle

/-- The input ports take the inputs of this Step (R40). -/
def latch (s : State) (input : StepInput) : State := { s with keys := input.keys, rnd := input.rnd }

/-- The free inputs of a Step the agenda does not name (R225, R226; log entry 4). -/
def freeInput (s : State) : StepInput := ⟨Config.freeKeys s.calls, Config.freeByte s.calls⟩

/-- The operation the host calls next: the agenda's first, or a Step with free inputs when it names none. -/
def nextOp (s : State) : HostOp :=
  match s.agenda with
  | op :: _ => op
  | [] => .step s.freeInput

/-- The host's call is taken off the agenda and counted, and the diagnostic port is quiet again. -/
def takeOp (s : State) : State := { s with agenda := s.agenda.tail, calls := s.calls + 1, diag := none }

end State

/-- One host operation as one atomic transition (R2, R218). -/
def perform (op : HostOp) (s : State) : Host.Outcome State Fault Refusal :=
  match op with
  | .step input => (s.latch input).stepOp
  | .tickTimers => .next s.tickTimers
  | .load bytes => .next (s.loadRom bytes)
  | .restart => .next s.restart

/-- The byte pair of an instruction word stored at pc and pc + 1 (R55, R62). -/
def State.placeWord (s : State) (op : Word) : State :=
  (s.memWrite s.pc.toNat (highByte op)).memWrite (s.pc.toNat + 1) (lowByte op)

/-- pc brought back to PROG_BASE where no instruction can be fetched from it (R62). -/
def State.fetchablePc (s : State) : State :=
  if s.pc.toNat + 1 ≤ Config.lastAddress then s else s.setPc (trunc16 Config.progBase)

/-- The run state brought to one that accepts a Step (R214). -/
def State.accepting (s : State) : State :=
  match s.run with
  | .uninitialized | .halted => s.setRun .running
  | .loaded | .running => s

/-- A Step put first on the agenda where another operation stands there. -/
def State.stepFirst (s : State) : State :=
  match s.nextOp with
  | .step _ => s
  | .tickTimers | .load _ | .restart => { s with agenda := .step s.freeInput :: s.agenda }

end Sys2Proof.Machine
end

