-- ==== Sys2Proof/Machine/Step.lean ====
section
/-! DEFINITION. The machine's step: the next operation the host calls, as one atomic transition (R2, R218). -/

namespace Sys2Proof.Machine

/-- One step of the machine: the next host operation. -/
def step (s : State) : Host.Outcome State Fault Refusal := perform s.nextOp s.takeOp

/-- `s` with the instruction word of bits `w` stored where `step` fetches its next instruction, and with whatever else
it takes for the next step to be a Step that fetches it: an accepting run state, a pc that can be fetched from, a Step
first on the agenda.  From `State.reset` only memory changes. -/
def State.withFetchWord (s : State) (nbits w : Nat) : State :=
  s.accepting.fetchablePc.stepFirst.placeWord (tableWord nbits w)

end Sys2Proof.Machine
end

