-- ==== Sys2Proof/Safety.lean ====
section
/-! DEFINITION. What counts as a safe run, in the terms statements use: frames, what a reset leaves, the conditions of
the fatal errors, which instruction may write what, the invariant of reachable states, the end of a run (R252). -/

namespace Sys2Proof.Machine

/-! ### Frames -/

/-- Nothing differs but the general registers and pc. -/
def OnlyRegsPc (s t : State) : Prop := t = { s with v := t.v, pc := t.pc }

/-- Nothing differs but pc. -/
def OnlyPc (s t : State) : Prop := t = { s with pc := t.pc }

/-- Nothing differs but I and pc. -/
def OnlyIPc (s t : State) : Prop := t = { s with i := t.i, pc := t.pc }

/-- Nothing differs but the call stack, its depth and pc. -/
def OnlyStackPc (s t : State) : Prop := t = { s with stack := t.stack, sp := t.sp, pc := t.pc }

/-- Nothing differs but memory and pc. -/
def OnlyMemPc (s t : State) : Prop := t = { s with mem := t.mem, pc := t.pc }

/-- Nothing differs but the framebuffer and pc. -/
def OnlyFbPc (s t : State) : Prop := t = { s with fb := t.fb, pc := t.pc }

/-- Nothing differs but the framebuffer, the general registers and pc. -/
def OnlyFbRegsPc (s t : State) : Prop := t = { s with fb := t.fb, v := t.v, pc := t.pc }

/-- R203: nothing differs but the run state, the fault record and the result, which are those of `Fault(c)`. -/
def FaultsWith (c : FaultCause) (s t : State) : Prop :=
  t = { s with run := .halted, faultCause := c, faultPc := s.pc, result := .fault c }

/-- The model's own fields after the host's call of one operation: the call taken off the agenda and counted, and the
result `r`.  The core's state and the configuration are those of `s`. -/
def State.returns (s : State) (r : OpResult) : State :=
  { s with agenda := s.agenda.tail, calls := s.calls + 1, diag := none, result := r }

/-! ### Operations -/

/-- A Step is accepted (R214). -/
def State.accepts (s : State) : Prop := s.run = .loaded ∨ s.run = .running

/-- What a reset from the ROM image `bytes` leaves in every element of the core's state (R241, R242). -/
structure AfterReset (bytes : List Byte) (t : State) : Prop where
  regs : ∀ k : Reg, t.reg k = 0
  index : t.i = 0
  pc : t.pc = 0x0200
  stack : ∀ k : Fin 16, t.stack[k.val] = 0
  sp : t.sp.val = 0
  timers : t.dt = 0 ∧ t.st = 0
  opcode : t.opcode = 0
  memory : ∀ a ≤ 0xFFF, t.memByte a =
    if 0x050 ≤ a ∧ a ≤ 0x09F then (t.cfg.font[a - 0x050]?).getD 0
    else if 0x200 ≤ a ∧ a < 0x200 + bytes.length then (bytes[a - 0x200]?).getD 0
    else 0
  screen : ∀ y x, t.fb.pixel y x = false
  run : t.run = .loaded
  record : t.faultCause = .none ∧ t.faultPc = 0
  rom : t.rom = bytes

/-- The conditions of R201's table, at the state a Step starts from. -/
def FaultCondition (s : State) : FaultCause → Prop
  | .none => False
  | .stackUnderflow => s.fetchWord.bind decodeWord = some .ret ∧ s.sp.val = 0
  | .stackOverflow => ∃ nnn, s.fetchWord.bind decodeWord = some (.call nnn) ∧ s.sp.val = 16
  | .fetchBounds => s.pc.toNat + 1 > 0xFFF
  | .dataBounds =>
    (∃ x y n, s.fetchWord.bind decodeWord = some (.drw x y n) ∧ n > 0 ∧ s.i.toNat + n - 1 > 0xFFF) ∨
    (∃ x, s.fetchWord.bind decodeWord = some (.ldBVx x) ∧ s.i.toNat + 2 > 0xFFF) ∨
    (∃ x, s.fetchWord.bind decodeWord = some (.ldMemVx x) ∧ s.i.toNat + x.val > 0xFFF) ∨
    (∃ x, s.fetchWord.bind decodeWord = some (.ldVxMem x) ∧ s.i.toNat + x.val > 0xFFF)

/-! ### The sprite -/

/-- Some set bit of the n-row sprite at I, drawn at (VX, VY), falls on column `px` of row `py` (R101-R103). -/
def SpriteCovers (s : State) (x y : Reg) (n : Nat) (py : Fin 32) (px : Fin 64) : Prop :=
  ∃ r < n, ∃ c < 8, (s.memByte (s.i.toNat + r)).getLsbD (7 - c) = true ∧
    px.val = ((s.reg x).toNat + c) % 64 ∧ py.val = ((s.reg y).toNat + r) % 32

/-! ### Which instruction may write what -/

/-- R21 and R22: the registers an instruction's rule writes. -/
def mayWriteReg (i : Instr) (k : Reg) : Bool :=
  match i with
  | .ldImm x _ | .addImm x _ | .ldReg x _ | .orReg x _ | .andReg x _ | .xorReg x _ | .rnd x _ | .ldVxDt x
  | .ldVxK x => k == x
  | .addReg x _ | .sub x _ | .shr x _ | .subn x _ | .shl x _ => k == x || k == 15
  | .drw _ _ _ => k == 15
  | .ldVxMem x => decide (k ≤ x)
  | .cls | .ret | .jp _ | .call _ | .seImm _ _ | .sneImm _ _ | .seReg _ _ | .sneReg _ _ | .ldI _ | .jpV0 _ | .skp _
  | .sknp _ | .ldDtVx _ | .ldStVx _ | .addIVx _ | .ldFVx _ | .ldBVx _ | .ldMemVx _ => false

/-- R56: FX33 and FX55 write memory. -/
def storesMemory (i : Instr) : Bool :=
  match i with
  | .ldBVx _ | .ldMemVx _ => true
  | .cls | .ret | .jp _ | .call _ | .seImm _ _ | .sneImm _ _ | .seReg _ _ | .ldImm _ _ | .addImm _ _ | .ldReg _ _
  | .orReg _ _ | .andReg _ _ | .xorReg _ _ | .addReg _ _ | .sub _ _ | .shr _ _ | .subn _ _ | .shl _ _ | .sneReg _ _
  | .ldI _ | .jpV0 _ | .rnd _ _ | .drw _ _ _ | .skp _ | .sknp _ | .ldVxDt _ | .ldVxK _ | .ldDtVx _ | .ldStVx _
  | .addIVx _ | .ldFVx _ | .ldVxMem _ => false

/-- R201: the instructions that can fault at execute. -/
def mayFault (i : Instr) : Bool :=
  match i with
  | .ret | .call _ | .drw _ _ _ | .ldBVx _ | .ldMemVx _ | .ldVxMem _ => true
  | .cls | .jp _ | .seImm _ _ | .sneImm _ _ | .seReg _ _ | .ldImm _ _ | .addImm _ _ | .ldReg _ _ | .orReg _ _
  | .andReg _ _ | .xorReg _ _ | .addReg _ _ | .sub _ _ | .shr _ _ | .subn _ _ | .shl _ _ | .sneReg _ _ | .ldI _
  | .jpV0 _ | .rnd _ _ | .skp _ | .sknp _ | .ldVxDt _ | .ldVxK _ | .ldDtVx _ | .ldStVx _ | .addIVx _
  | .ldFVx _ => false

/-- R225: EX9E, EXA1 and FX0A read the keypad. -/
def readsKeys (i : Instr) : Bool :=
  match i with
  | .skp _ | .sknp _ | .ldVxK _ => true
  | .cls | .ret | .jp _ | .call _ | .seImm _ _ | .sneImm _ _ | .seReg _ _ | .ldImm _ _ | .addImm _ _ | .ldReg _ _
  | .orReg _ _ | .andReg _ _ | .xorReg _ _ | .addReg _ _ | .sub _ _ | .shr _ _ | .subn _ _ | .shl _ _ | .sneReg _ _
  | .ldI _ | .jpV0 _ | .rnd _ _ | .drw _ _ _ | .ldVxDt _ | .ldDtVx _ | .ldStVx _ | .addIVx _ | .ldFVx _ | .ldBVx _
  | .ldMemVx _ | .ldVxMem _ => false

/-! ### Runs -/

/-- `t` is reached from `s` by some number of steps of the machine. -/
inductive Reaches (s : State) : State → Prop where
  | start : Reaches s s
  | next {t u : State} : Reaches s t → step t = .next u → Reaches s u

/-- What every state the machine reaches satisfies. -/
structure State.Inv (s : State) : Prop where
  /-- Memory is in canonical form, its addresses within 0x000-0xFFF (R51). -/
  memCanonical : Memory.wf s.cfg.font s.mem = true
  /-- The retained ROM fits (R37). -/
  romFits : s.rom.length ≤ Config.maxRom
  /-- Before any Load no ROM is retained (R246). -/
  romAbsent : s.run = .uninitialized → s.rom = []
  /-- A fault is recorded exactly in Halted (R36, R203). -/
  recordIff : s.run = .halted ↔ s.faultCause ≠ .none
  /-- Outside Halted the record's pc is 0x0000 (R36). -/
  recordClear : s.run ≠ .halted → s.faultPc = 0
  /-- In Halted pc is still the faulting instruction's address (R203). -/
  haltedPc : s.run = .halted → s.faultPc = s.pc
  /-- Once loaded, pc never passes 0x10FE (R25, R82). -/
  pcBound : s.run ≠ .uninitialized → s.pc.toNat ≤ 0x10FE
  /-- Once loaded, no return address passes 0x1000 (R82, R112). -/
  stackBound : s.run ≠ .uninitialized → ∀ k : Fin 16, (s.stack[k.val]).toNat ≤ 0x1000

/-- R252: Halted, or the next Step would execute a jump to its own address. -/
def State.atEnd (s : State) : Bool :=
  match s.run with
  | .halted => true
  | .uninitialized => false
  | .loaded | .running => s.fetchWord.bind decodeWord == some (.jp (s.pc.setWidth 12))

end Sys2Proof.Machine
end

