-- ==== Sys2Proof/Certificates/Slice0/Obligations.lean ====
section
/-! DEFINITION. The statements about the core, one rule or whole-machine property each. -/

section

open Sys2Proof Sys2Proof.Machine

/-! ### Encoding -/

/-- Words written out from R74's encodings decode to the instructions they stand for, and 0x5121 is rejected as
unmapped. That last word is unmapped by the table's exact masks, a choice: the spec's decision D6 (log entry 9). -/
def Obligations.SpecWordsDecode : Prop :=
  decode [0x00, 0xE0] = .ok (.cls, []) ∧
  decode [0x1A, 0xBC] = .ok (.jp 0xABC, []) ∧
  decode [0x3A, 0x5C] = .ok (.seImm 0xA 0x5C, []) ∧
  decode [0x51, 0x20] = .ok (.seReg 1 2, []) ∧
  decode [0x51, 0x21] = .error (.unmapped 0x5121) ∧
  decode [0x81, 0x2E] = .ok (.shl 1 2, []) ∧
  decode [0xD1, 0x25] = .ok (.drw 1 2 5, []) ∧
  decode [0xE4, 0xA1] = .ok (.sknp 4, []) ∧
  decode [0xF2, 0x65] = .ok (.ldVxMem 2, [])

/-- R70, R74 (exact masks: the spec's decision D6; log entry 9): decoding an encoded well-formed instruction gives it
back and consumes exactly its two bytes. -/
def Obligations.DecodeInvertsEncode : Prop :=
  ∀ (i : Instr) (rest : List Byte), i.wellFormed = true → decode (encodeBytes i ++ rest) = .ok (i, rest)

/-- R74, R79 (exact masks: the spec's decision D6; log entry 9): a mapped word decodes to a well-formed instruction,
and is that instruction's only word. -/
def Obligations.EncodeInvertsDecode : Prop :=
  ∀ (op : Word) (i : Instr), decodeWord op = some i → i.wellFormed = true ∧ encode i = op

/-- R74 (exact masks: the spec's decision D6; log entry 9): the decoder matches the word against the table of 34 rows;
at most one row matches any word. -/
def Obligations.DecoderFollowsOpcodeTable : Prop :=
  opcodeTable.length = 34 ∧
  (∀ (op : Word) (i : Instr), decodeWord op = some i →
    ∃ row ∈ opcodeTable, row.mnemonic = i.mnemonic ∧ op &&& row.mask = row.pattern) ∧
  (∀ op : Word, decodeWord op = none ↔ ∀ row ∈ opcodeTable, op &&& row.mask ≠ row.pattern) ∧
  (∀ op : Word, ∀ r ∈ opcodeTable, ∀ q ∈ opcodeTable,
    op &&& r.mask = r.pattern → op &&& q.mask = q.pattern → r = q)

/-- R72: every operand the decoder reads is the field of the word R72 names, unsigned and unscaled. -/
def Obligations.OperandsAreTheWordsFields : Prop :=
  ∀ (op : Word) (i : Instr), decodeWord op = some i →
    match i with
    | .cls | .ret => True
    | .jp nnn | .call nnn | .ldI nnn | .jpV0 nnn => nnn.toNat = op.toNat % 4096
    | .seImm x nn | .sneImm x nn | .ldImm x nn | .addImm x nn | .rnd x nn =>
      x.val = op.toNat / 256 % 16 ∧ nn.toNat = op.toNat % 256
    | .seReg x y | .ldReg x y | .orReg x y | .andReg x y | .xorReg x y | .addReg x y | .sub x y | .shr x y | .subn x y
    | .shl x y | .sneReg x y => x.val = op.toNat / 256 % 16 ∧ y.val = op.toNat / 16 % 16
    | .drw x y n => x.val = op.toNat / 256 % 16 ∧ y.val = op.toNat / 16 % 16 ∧ n = op.toNat % 16
    | .skp x | .sknp x | .ldVxDt x | .ldVxK x | .ldDtVx x | .ldStVx x | .addIVx x | .ldFVx x | .ldBVx x | .ldMemVx x
    | .ldVxMem x => x.val = op.toNat / 256 % 16

/-- R76's families of unmapped words, and no others (the spec's decision D6; log entry 9; the counts of R76 are not
stated here). -/
def Obligations.UnmappedWordsAreTheFamilies : Prop :=
  ∀ op : Word, decodeWord op = none ↔
    (op.toNat < 0x1000 ∧ op.toNat ≠ 0x00E0 ∧ op.toNat ≠ 0x00EE) ∨
    (op.toNat / 0x1000 = 0x5 ∧ op.toNat % 16 ≠ 0) ∨
    (op.toNat / 0x1000 = 0x8 ∧ op.toNat % 16 ∈ [0x8, 0x9, 0xA, 0xB, 0xC, 0xD, 0xF]) ∨
    (op.toNat / 0x1000 = 0x9 ∧ op.toNat % 16 ≠ 0) ∨
    (op.toNat / 0x1000 = 0xE ∧ op.toNat % 256 ∉ [0x9E, 0xA1]) ∨
    (op.toNat / 0x1000 = 0xF ∧ op.toNat % 256 ∉ [0x07, 0x0A, 0x15, 0x18, 0x1E, 0x29, 0x33, 0x55, 0x65])

/-! ### The step cycle -/

/-- R62, R81 (which states accept a Step, and the opcode register: the spec's decisions D13 and D21; log entries 15
and 19): when the two bytes at pc decode to an instruction, an accepted Step runs exactly it, in the state in which
run is Running, the opcode register holds the word, the ports hold the Step's inputs and the host's call is
counted. -/
def Obligations.StepRunsDecodedInstruction : Prop :=
  ∀ (s : State) (inp : StepInput) (i : Instr),
    s.nextOp = .step inp → s.accepts → s.pc.toNat ≤ 0xFFE →
    decode [s.memByte s.pc.toNat, s.memByte (s.pc.toNat + 1)] = .ok (i, []) →
    step s = exec i { s with
      run := .running
      opcode := wordOfBytes (s.memByte s.pc.toNat) (s.memByte (s.pc.toNat + 1))
      keys := inp.keys
      rnd := inp.rnd
      agenda := s.agenda.tail
      calls := s.calls + 1
      result := .ok
      diag := none }

/-- R77 (the form of the diagnostic: the spec's decision D22; log entries 9 and 28): an unmapped word is a no-op with
a diagnostic, and pc advances by 2. -/
def Obligations.UnmappedWordIsNoOp : Prop :=
  ∀ (s : State) (inp : StepInput) (op : Word),
    s.nextOp = .step inp → s.accepts → s.pc.toNat ≤ 0xFFE →
    op = wordOfBytes (s.memByte s.pc.toNat) (s.memByte (s.pc.toNat + 1)) → decodeWord op = none →
    step s = .next { s with
      run := .running
      opcode := op
      pc := s.pc + 2
      keys := inp.keys
      rnd := inp.rnd
      agenda := s.agenda.tail
      calls := s.calls + 1
      result := .unmapped
      diag := some (.unmapped s.pc op) }

/-- R62 (the spec's decision D3; log entry 8): a fetch whose second byte would lie past 0xFFF raises FETCH_BOUNDS, and
otherwise the opcode of the step is mem[pc] : mem[pc+1]. -/
def Obligations.FetchChecksBounds : Prop :=
  ∀ (s : State) (inp : StepInput), s.nextOp = .step inp → s.accepts →
    (s.pc.toNat + 1 > 0xFFF →
      step s = .next { s with
        run := .halted
        faultCause := .fetchBounds
        faultPc := s.pc
        keys := inp.keys
        rnd := inp.rnd
        agenda := s.agenda.tail
        calls := s.calls + 1
        result := .fault .fetchBounds
        diag := none }) ∧
    (s.pc.toNat + 1 ≤ 0xFFF → ∃ t, step s = .next t ∧
      t.opcode.toNat = (s.memByte s.pc.toNat).toNat * 256 + (s.memByte (s.pc.toNat + 1)).toNat)

/-- R214 (the spec's decision D13; log entry 15): a Step is rejected without effect in Uninitialized and in Halted; in
Loaded and Running it runs the cycle. -/
def Obligations.StepAcceptance : Prop :=
  ∀ (s : State) (inp : StepInput), s.nextOp = .step inp →
    (s.run = .uninitialized → ∃ t, step s = .next t ∧ t.toArch = s.toArch ∧ t.cfg = s.cfg ∧
      t.result = .rejectedNotLoaded ∧ t.diag = none) ∧
    (s.run = .halted → ∃ t, step s = .next t ∧ t.toArch = s.toArch ∧ t.cfg = s.cfg ∧
      t.result = .rejectedHalted ∧ t.diag = none) ∧
    (s.accepts → step s = State.cycle { s with
      run := .running
      keys := inp.keys
      rnd := inp.rnd
      agenda := s.agenda.tail
      calls := s.calls + 1
      diag := none })

/-- R213 (the spec's decisions D13, D25, D29, D30; log entry 15): the run-state table, every cell; every arrow into
Loaded goes through the reset. -/
def Obligations.RunStateTransitions : Prop :=
  ∀ s t : State, step s = .next t →
    match s.nextOp with
    | .step _ =>
      match s.run with
      | .uninitialized => t.run = .uninitialized ∧ t.result = .rejectedNotLoaded
      | .halted => t.run = .halted ∧ t.result = .rejectedHalted
      | .loaded | .running =>
        (t.run = .running ∧ (t.result = .ok ∨ t.result = .unmapped)) ∨ (t.run = .halted ∧ ∃ c, t.result = .fault c)
    | .tickTimers =>
      t.run = s.run ∧
      match s.run with
      | .uninitialized => t.result = .rejectedNotLoaded
      | .halted => t.result = .rejectedHalted
      | .loaded | .running => t.result = .ok
    | .load bytes =>
      if bytes.length ≤ 3584 then AfterReset bytes t ∧ t.result = .ok
      else t.run = s.run ∧ t.result = .loadTooLarge
    | .restart =>
      match s.run with
      | .uninitialized => t.run = .uninitialized ∧ t.result = .rejectedNotLoaded
      | .loaded | .running | .halted => AfterReset s.rom t ∧ t.result = .ok

/-- R207 (the spec's decisions D13, D29, D30; log entry 15): Halted is absorbing for Step and TickTimers; only Restart
or a successful Load leaves it, and both clear the fault record. -/
def Obligations.HaltedIsAbsorbing : Prop :=
  ∀ s t : State, s.run = .halted → step s = .next t →
    match s.nextOp with
    | .step _ | .tickTimers => t.result = .rejectedHalted ∧ t.toArch = s.toArch
    | .load bytes =>
      if bytes.length ≤ 3584 then t.run = .loaded ∧ t.faultCause = .none ∧ t.faultPc = 0 else t.toArch = s.toArch
    | .restart => t.run = .loaded ∧ t.faultCause = .none ∧ t.faultPc = 0

/-- R202, R210 (the spec's decisions D13 and D18; log entries 15 and 22): no operation and no instruction stops the
machine; every step answers a next state. -/
def Obligations.EveryStepAnswers : Prop := ∀ s : State, ∃ t, step s = .next t

/-! ### Fatal errors -/

/-- R203 (the spec's decision D4; log entry 22): a faulting Step changes the run state and the fault record and
nothing else; the opcode register keeps the word fetched by this step, or its earlier value when the fetch itself
faulted. -/
def Obligations.FaultsArePrecise : Prop :=
  ∀ (s t : State) (inp : StepInput) (c : FaultCause),
    s.nextOp = .step inp → step s = .next t → t.result = .fault c →
    s.accepts ∧ c ≠ .none ∧
    t.toArch = { s.toArch with run := .halted, faultCause := c, faultPc := s.pc, opcode := t.opcode } ∧
    (c = .fetchBounds → t.opcode = s.opcode) ∧
    (c ≠ .fetchBounds → t.opcode = wordOfBytes (s.memByte s.pc.toNat) (s.memByte (s.pc.toNat + 1)))

/-- R201 (the cause codes and the bounds faults: the spec's decisions D3 and D5; log entries 8 and 22): an accepted
Step faults with a cause exactly when that cause's condition holds; the record is the cause and the pc of the step. -/
def Obligations.FaultConditionsAreExact : Prop :=
  (FaultCause.none.code = 0 ∧ FaultCause.stackUnderflow.code = 1 ∧ FaultCause.stackOverflow.code = 2 ∧
    FaultCause.fetchBounds.code = 3 ∧ FaultCause.dataBounds.code = 4) ∧
  ∀ (s t : State) (inp : StepInput), s.nextOp = .step inp → s.accepts → step s = .next t →
    ∀ c : FaultCause,
      (t.result = .fault c ↔ FaultCondition s c) ∧
      (t.result = .fault c → t.faultCause = c ∧ t.faultPc = s.pc ∧ t.pc = s.pc)

/-! ### Load, Restart, TickTimers -/

/-- R240, R241 (Load in every run state, the screen, the opcode register: the spec's decisions D12, D21 and D25; log
entries 14, 15 and 19): Load of at most 3584 bytes resets every element of the core; a longer one changes nothing of
the core. -/
def Obligations.LoadResetsOrChangesNothing : Prop :=
  ∀ (s : State) (bytes : List Byte), s.nextOp = .load bytes →
    (bytes.length ≤ 3584 → ∃ t, step s = .next t ∧ AfterReset bytes t ∧ t.result = .ok ∧ t.cfg = s.cfg) ∧
    (bytes.length > 3584 → step s = .next (s.returns .loadTooLarge))

/-- R242 (the font's place: the spec's decision D1; log entry 5): the memory after a successful Load of a ROM of
length L: FONT at 0x050-0x09F, the ROM from 0x200, 0x00 everywhere else. -/
def Obligations.LoadedMemoryContents : Prop :=
  ∀ (s t : State) (bytes : List Byte), s.nextOp = .load bytes → bytes.length ≤ 3584 → step s = .next t →
    (∀ j (h : j < 80), t.memByte (0x050 + j) = s.cfg.font[j]) ∧
    (∀ j (h : j < bytes.length), t.memByte (0x200 + j) = bytes[j]) ∧
    (∀ a ≤ 0xFFF, ¬ (0x050 ≤ a ∧ a ≤ 0x09F) → ¬ (0x200 ≤ a ∧ a < 0x200 + bytes.length) → t.memByte a = 0)

/-- R244, R216 (the spec's decisions D28 and D30; log entry 15): Restart, accepted once loaded, resets from the
retained ROM and keeps it; before any Load it is rejected. -/
def Obligations.RestartReloads : Prop :=
  ∀ s : State, s.nextOp = .restart →
    (s.run = .uninitialized → step s = .next (s.returns .rejectedNotLoaded)) ∧
    (s.run ≠ .uninitialized → ∃ t, step s = .next t ∧ AfterReset s.rom t ∧ t.result = .ok ∧ t.cfg = s.cfg)

/-- R245, an inference of the spec from R241 and R244: after a Restart the whole state of the core equals the state
right after the Load, whatever operations other than a Load ran in between and however many. -/
def Obligations.RestartEqualsLoad : Prop :=
  ∀ (s s1 t u : State) (bytes : List Byte),
    s.nextOp = .load bytes → bytes.length ≤ 3584 → step s = .next s1 →
    (∀ op ∈ s1.agenda, ∀ b, op ≠ .load b) → Reaches s1 t →
    t.nextOp = .restart → step t = .next u →
    u.toArch = s1.toArch ∧ u.cfg = s1.cfg ∧ u.result = .ok

/-- R220: TickTimers decrements each timer that is above 0, never below 0, and changes nothing else. That it is
rejected in Uninitialized and in Halted is a choice, R215, the spec's decision D29 (log entry 15). -/
def Obligations.TickTimersCountsDown : Prop :=
  ∀ s : State, s.nextOp = .tickTimers →
    (s.run = .uninitialized → step s = .next (s.returns .rejectedNotLoaded)) ∧
    (s.run = .halted → step s = .next (s.returns .rejectedHalted)) ∧
    (s.accepts → ∃ t, step s = .next t ∧
      t = { s with dt := t.dt, st := t.st, agenda := s.agenda.tail, calls := s.calls + 1, result := .ok, diag := none } ∧
      t.dt.toNat = s.dt.toNat - 1 ∧ t.st.toNat = s.st.toNat - 1)

/-! ### Whole-machine rules -/

/-- The reset state (log entries 1, 2 and 3) meets the invariant. -/
def Obligations.ResetMeetsTheInvariant : Prop := State.reset.Inv

/-- R241 at L = 0: the model's reset state (its choice, log entry 1) is what a Load of an empty ROM leaves, whatever
the state before, under the default configuration (log entry 2). -/
def Obligations.ResetIsTheLoadOfAnEmptyROM : Prop :=
  ∀ s t : State, s.nextOp = .load [] → s.cfg = defaultConfig → step s = .next t →
    t.toArch = State.reset.toArch ∧ t.cfg = State.reset.cfg

/-- R246 (the spec's decision D13; log entry 15): a power-on state meets the invariant, whatever the elements R246
leaves unspecified hold, as long as its memory list is canonical. -/
def Obligations.PowerOnMeetsTheInvariant : Prop :=
  ∀ s : State, s.isPowerOn = true → Memory.wf s.cfg.font s.mem = true → s.Inv

/-- R51, R82, R203 and R36 together (the model's own invariant; its memory form is log entry 23): from every state
that meets the invariant, every operation gives a state that meets it: memory stays canonical and within 0x000-0xFFF,
pc never passes 0x10FE, a fault is recorded exactly in Halted. -/
def Obligations.StepKeepsTheInvariant : Prop := ∀ s t : State, s.Inv → step s = .next t → t.Inv

/-- R39: no operation changes the configuration. -/
def Obligations.ConfigurationIsFixed : Prop := ∀ s t : State, step s = .next t → t.cfg = s.cfg

/-- R21, R22, R83: an instruction changes no general register but those its rule writes; in particular VF changes only
as a flag of 8XY4-8XY7, 8XYE and DXYN or as a destination. -/
def Obligations.RegistersChangeOnlyByTheirWriters : Prop :=
  ∀ (i : Instr) (s t : State) (k : Reg), exec i s = .next t → mayWriteReg i k = false → t.reg k = s.reg k

/-- R24, R29, R30, R31, R33, R56, R83: each element of the state other than V and pc changes only by the instructions
whose rules write it. -/
def Obligations.StateChangesOnlyByItsWriters : Prop :=
  ∀ (i : Instr) (s t : State), exec i s = .next t →
    (storesMemory i = false → ∀ a, t.memByte a = s.memByte a) ∧
    (t.i ≠ s.i → (∃ nnn, i = .ldI nnn) ∨ (∃ x, i = .addIVx x) ∨ (∃ x, i = .ldFVx x)) ∧
    (t.dt ≠ s.dt → ∃ x, i = .ldDtVx x) ∧
    (t.st ≠ s.st → ∃ x, i = .ldStVx x) ∧
    (t.fb ≠ s.fb → i = .cls ∨ ∃ x y n, i = .drw x y n) ∧
    (t.sp ≠ s.sp ∨ t.stack ≠ s.stack → i = .ret ∨ ∃ nnn, i = .call nnn) ∧
    (mayFault i = false → t.run = s.run ∧ t.faultCause = s.faultCause ∧ t.faultPc = s.faultPc ∧ t.result = s.result) ∧
    (t.opcode = s.opcode ∧ t.rom = s.rom ∧ t.cfg = s.cfg ∧ t.diag = s.diag ∧ t.agenda = s.agenda ∧ t.calls = s.calls)

/-- R82, an inference of the spec from R62 and the instruction rules: the pc every instruction leaves, from a pc that
was fetched from. -/
def Obligations.PcAfterEveryInstruction : Prop :=
  ∀ (i : Instr) (s t : State), s.pc.toNat ≤ 0xFFE → exec i s = .next t →
    match i with
    | .jp nnn => t.pc.toNat = nnn.toNat
    | .call nnn => if s.sp.val < 16 then t.pc.toNat = nnn.toNat else t.pc = s.pc
    | .jpV0 nnn => t.pc.toNat = nnn.toNat + (s.reg 0).toNat
    | .ret => if h : 0 < s.sp.val then t.pc = s.stack[s.sp.val - 1]'(by omega) else t.pc = s.pc
    | .seImm _ _ | .sneImm _ _ | .seReg _ _ | .sneReg _ _ | .skp _ | .sknp _ =>
      t.pc.toNat = s.pc.toNat + 2 ∨ t.pc.toNat = s.pc.toNat + 4
    | .ldVxK _ => if s.keys = 0 then t.pc = s.pc else t.pc.toNat = s.pc.toNat + 2
    | .drw _ _ n => if n > 0 ∧ s.i.toNat + n - 1 > 0xFFF then t.pc = s.pc else t.pc.toNat = s.pc.toNat + 2
    | .ldBVx _ => if s.i.toNat + 2 > 0xFFF then t.pc = s.pc else t.pc.toNat = s.pc.toNat + 2
    | .ldMemVx x | .ldVxMem x => if s.i.toNat + x.val > 0xFFF then t.pc = s.pc else t.pc.toNat = s.pc.toNat + 2
    | .cls | .ldImm _ _ | .addImm _ _ | .ldReg _ _ | .orReg _ _ | .andReg _ _ | .xorReg _ _ | .addReg _ _ | .sub _ _
    | .shr _ _ | .subn _ _ | .shl _ _ | .ldI _ | .rnd _ _ | .ldVxDt _ | .ldDtVx _ | .ldStVx _ | .addIVx _
    | .ldFVx _ => t.pc.toNat = s.pc.toNat + 2

/-- R225, R226 (the spec's decisions D11 and D31; log entry 21): only EX9E, EXA1 and FX0A read the keypad and only
CXNN reads the random byte; every other instruction does the same whatever those inputs are. -/
def Obligations.InputsReachOnlyTheirReaders : Prop :=
  ∀ (i : Instr) (s t : State), exec i s = .next t →
    (readsKeys i = false → ∀ k, exec i { s with keys := k } = .next { t with keys := k }) ∧
    ((∀ x nn, i ≠ .rnd x nn) → ∀ r, exec i { s with rnd := r } = .next { t with rnd := r })

/-- The model's memory list is canonical: two memories of that form that read alike at every address are the same list
(the model's own representation, log entry 23). -/
def Obligations.CanonicalMemoriesThatReadAlikeAreEqual : Prop :=
  ∀ (font : Font) (m q : Memory), Memory.wf font m = true → Memory.wf font q = true →
    (∀ a, Memory.read font m a = Memory.read font q a) → m = q

/-- R65 (the spec's decision D19; log entry 32): a byte written by FX55 is what a later fetch of its address reads. -/
def Obligations.FetchSeesStoredBytes : Prop :=
  ∀ (s t : State) (x k : Reg), s.i.toNat + x.val ≤ 0xFFF → k.val + 1 ≤ x.val → exec (.ldMemVx x) s = .next t →
    ∀ u : State, u.mem = t.mem → u.cfg = t.cfg → u.pc.toNat = s.i.toNat + k.val →
      u.fetchWord = some (wordOfBytes (s.reg k) (s.reg (k + 1)))

/-! ### Display -/

/-- R100 (the framebuffer in the core: the spec's decision D12; log entry 14): CLS clears every pixel and changes
nothing else but pc. -/
def Obligations.ClsClearsTheScreen : Prop :=
  ∀ s : State, ∃ t, exec .cls s = .next t ∧
    (∀ y x, t.fb.pixel y x = false) ∧ t.pc = s.pc + 2 ∧ OnlyFbPc s t

/-- From R101: DXYN toggles exactly the pixels its sprite's set bits fall on, bit 7 leftmost, wrapping modulo 64 and
32; VF is 1 exactly when one of them was set; nothing else changes but pc. With N > 0 and a sprite past 0xFFF it
raises DATA_BOUNDS. Clauses of it are choices, the spec's decisions: the framebuffer and its wrap D12 (log entry 14),
the bounds fault D3 (log entry 8), the bit order D27 (log entry 20), N = 0 D20 (log entry 18), the fault record D4 and
D5 (log entry 22). -/
def Obligations.DrwXorsTheSprite : Prop :=
  ∀ (s : State) (x y : Reg) (n : Nat), n ≤ 15 →
    (n > 0 ∧ s.i.toNat + n - 1 > 0xFFF → ∃ t, exec (.drw x y n) s = .next t ∧ FaultsWith .dataBounds s t) ∧
    (n = 0 ∨ s.i.toNat + n - 1 ≤ 0xFFF → ∃ t, exec (.drw x y n) s = .next t ∧
      (∀ py px, SpriteCovers s x y n py px → t.fb.pixel py px = !s.fb.pixel py px) ∧
      (∀ py px, ¬ SpriteCovers s x y n py px → t.fb.pixel py px = s.fb.pixel py px) ∧
      ((∃ py px, SpriteCovers s x y n py px ∧ s.fb.pixel py px = true) → t.reg 15 = 1) ∧
      ((∀ py px, SpriteCovers s x y n py px → s.fb.pixel py px = false) → t.reg 15 = 0) ∧
      (∀ k : Reg, k ≠ 15 → t.reg k = s.reg k) ∧ t.pc = s.pc + 2 ∧ OnlyFbRegsPc s t)

/-- R104 (the spec's decision D20; log entry 18): DXYN with N = 0 draws nothing, checks no bound and clears VF,
whatever I holds. -/
def Obligations.DrwOfNoRowsOnlyClearsVF : Prop :=
  ∀ (s : State) (x y : Reg), ∃ t, exec (.drw x y 0) s = .next t ∧
    t.reg 15 = 0 ∧ (∀ k : Reg, k ≠ 15 → t.reg k = s.reg k) ∧ t.pc = s.pc + 2 ∧ OnlyRegsPc s t

/-- W8, from R101 and R102: a sprite with a set bit drawn twice at one place, on a clear area, reports no collision,
then a collision, and leaves the screen as it was. -/
def Obligations.DrawingTwiceErases : Prop :=
  ∀ (s t u : State) (x y : Reg) (n : Nat), n ≤ 15 → s.i.toNat + n - 1 ≤ 0xFFF → x ≠ 15 → y ≠ 15 →
    (∃ py px, SpriteCovers s x y n py px) → (∀ py px, SpriteCovers s x y n py px → s.fb.pixel py px = false) →
    exec (.drw x y n) s = .next t → exec (.drw x y n) t = .next u →
    t.reg 15 = 0 ∧ u.reg 15 = 1 ∧ u.fb = s.fb

/-! ### Control transfer -/

/-- From R110 and R28: RET pops the return address into pc; on an empty stack it raises STACK_UNDERFLOW. The fault
record and the Halted state that fault leaves are choices, R203, the spec's decisions D4 and D5 (log entry 22). -/
def Obligations.RetPopsOrUnderflows : Prop :=
  ∀ s : State,
    (∀ h : 0 < s.sp.val, ∃ t, exec .ret s = .next t ∧
      t.pc = s.stack[s.sp.val - 1]'(by omega) ∧ t.sp.val + 1 = s.sp.val ∧ t.stack = s.stack ∧ OnlyStackPc s t) ∧
    (s.sp.val = 0 → ∃ t, exec .ret s = .next t ∧ FaultsWith .stackUnderflow s t)

/-- From R112: CALL pushes the address after itself and jumps to NNN; on a full stack it raises STACK_OVERFLOW. The
capacity 16 is a choice, the spec's decision D2 (log entry 6), and so are the fault record and the Halted state, R203,
its decisions D4 and D5 (log entry 22). -/
def Obligations.CallPushesOrOverflows : Prop :=
  ∀ (s : State) (nnn : BitVec 12),
    (∀ h : s.sp.val < 16, ∃ t, exec (.call nnn) s = .next t ∧
      t.pc.toNat = nnn.toNat ∧ t.sp.val = s.sp.val + 1 ∧ t.stack[s.sp.val] = s.pc + 2 ∧
      (∀ k : Fin 16, k.val ≠ s.sp.val → t.stack[k.val] = s.stack[k.val]) ∧ OnlyStackPc s t) ∧
    (s.sp.val = 16 → ∃ t, exec (.call nnn) s = .next t ∧ FaultsWith .stackOverflow s t)

/-- W6, from R110 and R112: RET after a CALL, with the stack as the CALL left it, goes to the instruction right after
the CALL, and the depth is what it was. -/
def Obligations.RetReturnsAfterTheCall : Prop :=
  ∀ (s t u w : State) (nnn : BitVec 12), s.sp.val < 16 → exec (.call nnn) s = .next t →
    u.stack = t.stack → u.sp = t.sp → exec .ret u = .next w →
    w.pc = s.pc + 2 ∧ w.sp = s.sp

/-- R111: 1NNN goes to NNN, with no default advance; nothing else changes. -/
def Obligations.JpGoesToItsTarget : Prop :=
  ∀ (s : State) (nnn : BitVec 12), ∃ t, exec (.jp nnn) s = .next t ∧ t.pc.toNat = nnn.toNat ∧ OnlyPc s t

/-- R117 (no wrap to 12 bits: the spec's decision D3; log entry 8): BNNN goes to NNN + V0, unwrapped; nothing else
changes. -/
def Obligations.JpV0GoesToItsTarget : Prop :=
  ∀ (s : State) (nnn : BitVec 12), ∃ t, exec (.jpV0 nnn) s = .next t ∧
    t.pc.toNat = nnn.toNat + (s.reg 0).toNat ∧ OnlyPc s t

/-- R252 (the spec's decision D33; log entry 25), from R111 and R214: once a run is at its end, a Step leaves it at
its end and changes nothing of the core but the run state and the opcode register. -/
def Obligations.EndOfRunIsStable : Prop :=
  ∀ (s t : State) (inp : StepInput), s.atEnd = true → s.nextOp = .step inp → step s = .next t →
    t.atEnd = true ∧ t.toArch = { s.toArch with run := t.run, opcode := t.opcode }

/-- R113, R114, and R115 and R116 as to what they do once decoded: the register skips go 4 bytes on when their
condition holds and 2 when it does not; nothing else changes. -/
def Obligations.RegisterSkipsFollowTheirConditions : Prop :=
  ∀ (s : State) (x y : Reg) (nn : Byte),
    (∃ t, exec (.seImm x nn) s = .next t ∧ t.pc = s.pc + (if s.reg x = nn then 4 else 2) ∧ OnlyPc s t) ∧
    (∃ t, exec (.sneImm x nn) s = .next t ∧ t.pc = s.pc + (if s.reg x = nn then 2 else 4) ∧ OnlyPc s t) ∧
    (∃ t, exec (.seReg x y) s = .next t ∧ t.pc = s.pc + (if s.reg x = s.reg y then 4 else 2) ∧ OnlyPc s t) ∧
    (∃ t, exec (.sneReg x y) s = .next t ∧ t.pc = s.pc + (if s.reg x = s.reg y then 2 else 4) ∧ OnlyPc s t)

/-! ### Arithmetic and logic -/

/-- R133, R135: 6XNN and 8XY0 load VX and change no other register, no flag and nothing else but pc. -/
def Obligations.LoadsOfRegisters : Prop :=
  ∀ (s : State) (x y : Reg) (nn : Byte),
    (∃ t, exec (.ldImm x nn) s = .next t ∧
      t.reg x = nn ∧ (∀ k : Reg, k ≠ x → t.reg k = s.reg k) ∧ t.pc = s.pc + 2 ∧ OnlyRegsPc s t) ∧
    (∃ t, exec (.ldReg x y) s = .next t ∧
      t.reg x = s.reg y ∧ (∀ k : Reg, k ≠ x → t.reg k = s.reg k) ∧ t.pc = s.pc + 2 ∧ OnlyRegsPc s t)

/-- R134: 7XNN adds modulo 256 and updates no flag. -/
def Obligations.AddImmediateWrapsWithoutFlag : Prop :=
  ∀ (s : State) (x : Reg) (nn : Byte), ∃ t, exec (.addImm x nn) s = .next t ∧
    t.reg x = s.reg x + nn ∧ (∀ k : Reg, k ≠ x → t.reg k = s.reg k) ∧ t.pc = s.pc + 2 ∧ OnlyRegsPc s t

/-- R136-R138: 8XY1, 8XY2 and 8XY3 combine VX and VY bit by bit into VX and change no other register, VF included. -/
def Obligations.LogicCombinesBits : Prop :=
  ∀ (s : State) (x y : Reg),
    (∃ t, exec (.orReg x y) s = .next t ∧
      (∀ b < 8, (t.reg x).getLsbD b = ((s.reg x).getLsbD b || (s.reg y).getLsbD b)) ∧
      (∀ k : Reg, k ≠ x → t.reg k = s.reg k) ∧ t.pc = s.pc + 2 ∧ OnlyRegsPc s t) ∧
    (∃ t, exec (.andReg x y) s = .next t ∧
      (∀ b < 8, (t.reg x).getLsbD b = ((s.reg x).getLsbD b && (s.reg y).getLsbD b)) ∧
      (∀ k : Reg, k ≠ x → t.reg k = s.reg k) ∧ t.pc = s.pc + 2 ∧ OnlyRegsPc s t) ∧
    (∃ t, exec (.xorReg x y) s = .next t ∧
      (∀ b < 8, (t.reg x).getLsbD b = ((s.reg x).getLsbD b ^^ (s.reg y).getLsbD b)) ∧
      (∀ k : Reg, k ≠ x → t.reg k = s.reg k) ∧ t.pc = s.pc + 2 ∧ OnlyRegsPc s t)

/-- R139: 8XY4 adds modulo 256 and then writes the carry to VF, so VF ends as the carry even when X is F. -/
def Obligations.AddSetsCarry : Prop :=
  ∀ (s : State) (x y : Reg), ∃ t, exec (.addReg x y) s = .next t ∧
    (x ≠ 15 → t.reg x = s.reg x + s.reg y) ∧
    (t.reg 15 = if (s.reg x).toNat + (s.reg y).toNat > 0xFF then 1 else 0) ∧
    (∀ k : Reg, k ≠ x → k ≠ 15 → t.reg k = s.reg k) ∧ t.pc = s.pc + 2 ∧ OnlyRegsPc s t

/-- R140 (aliased forms: the spec's decision D7; log entry 10): 8XY5 writes VF with VX > VY, then VX with the wrapped
difference of the registers as they then stand, aliased forms included. -/
def Obligations.SubWritesFlagThenDifference : Prop :=
  ∀ (s : State) (x y : Reg) (f : Byte), (f = if s.reg y < s.reg x then 1 else 0) →
    ∃ t, exec (.sub x y) s = .next t ∧
      (x ≠ 15 → t.reg 15 = f) ∧
      (x ≠ 15 → y ≠ 15 → t.reg x = s.reg x - s.reg y) ∧
      (x ≠ 15 → y = 15 → t.reg x = s.reg x - f) ∧
      (x = 15 → y ≠ 15 → t.reg 15 = f - s.reg y) ∧
      (x = 15 → y = 15 → t.reg 15 = 0) ∧
      (∀ k : Reg, k ≠ x → k ≠ 15 → t.reg k = s.reg k) ∧ t.pc = s.pc + 2 ∧ OnlyRegsPc s t

/-- R142 (aliased forms: the spec's decision D7; log entry 10): 8XY7 writes VF with VY > VX, then VX with VY minus VX
of the registers as they then stand, aliased forms included. -/
def Obligations.SubnWritesFlagThenDifference : Prop :=
  ∀ (s : State) (x y : Reg) (f : Byte), (f = if s.reg x < s.reg y then 1 else 0) →
    ∃ t, exec (.subn x y) s = .next t ∧
      (x ≠ 15 → t.reg 15 = f) ∧
      (x ≠ 15 → y ≠ 15 → t.reg x = s.reg y - s.reg x) ∧
      (x ≠ 15 → y = 15 → t.reg x = f - s.reg x) ∧
      (x = 15 → y ≠ 15 → t.reg 15 = s.reg y - f) ∧
      (x = 15 → y = 15 → t.reg 15 = 0) ∧
      (∀ k : Reg, k ≠ x → k ≠ 15 → t.reg k = s.reg k) ∧ t.pc = s.pc + 2 ∧ OnlyRegsPc s t

/-- R141, R132 (the spec's decisions D7 and D24; log entries 7 and 10): 8XY6 shifts VY (VX when SHIFT_USES_VY is
false) right by one into VX, with the bit shifted out in VF; with X = F, VF ends 0x00. -/
def Obligations.ShrShiftsRight : Prop :=
  ∀ (s : State) (x y : Reg) (src : Byte), (src = if s.cfg.shiftUsesVy then s.reg y else s.reg x) →
    ∃ t, exec (.shr x y) s = .next t ∧
      (x ≠ 15 → (t.reg x).toNat = src.toNat / 2 ∧ (t.reg 15).toNat = src.toNat % 2) ∧
      (x = 15 → t.reg 15 = 0) ∧
      (∀ k : Reg, k ≠ x → k ≠ 15 → t.reg k = s.reg k) ∧ t.pc = s.pc + 2 ∧ OnlyRegsPc s t

/-- R143, R132 (the spec's decisions D7 and D24; log entries 7 and 10): 8XYE shifts VY (VX when SHIFT_USES_VY is
false) left by one into VX, with the bit shifted out in VF; with X = F, VF ends 0x02 or 0x00 as that bit was 1 or
0. -/
def Obligations.ShlShiftsLeft : Prop :=
  ∀ (s : State) (x y : Reg) (src : Byte), (src = if s.cfg.shiftUsesVy then s.reg y else s.reg x) →
    ∃ t, exec (.shl x y) s = .next t ∧
      (x ≠ 15 → (t.reg x).toNat = src.toNat * 2 % 256 ∧ (t.reg 15).toNat = src.toNat / 128) ∧
      (x = 15 → (t.reg 15).toNat = src.toNat / 128 * 2) ∧
      (∀ k : Reg, k ≠ x → k ≠ 15 → t.reg k = s.reg k) ∧ t.pc = s.pc + 2 ∧ OnlyRegsPc s t

/-- R144 (the random byte a free input: the spec's decision D11; log entry 4): CXNN writes VX with the step's random
byte masked by NN; bits of VX where NN is 0 are 0. -/
def Obligations.RndMasksTheRandomByte : Prop :=
  ∀ (s : State) (x : Reg) (nn : Byte), ∃ t, exec (.rnd x nn) s = .next t ∧
    (∀ b < 8, (t.reg x).getLsbD b = (s.rnd.getLsbD b && nn.getLsbD b)) ∧
    (∀ k : Reg, k ≠ x → t.reg k = s.reg k) ∧ t.pc = s.pc + 2 ∧ OnlyRegsPc s t

/-! ### Index register and memory -/

/-- From R160: ANNN loads I with NNN. And from R161: FX1E adds VX to I modulo 65536 with no flag; that the sum wraps
at 16 bits is a choice, the spec's decision D26 (log entry 29). -/
def Obligations.IndexRegisterWrites : Prop :=
  ∀ (s : State) (x : Reg) (nnn : BitVec 12),
    (∃ t, exec (.ldI nnn) s = .next t ∧ t.i.toNat = nnn.toNat ∧ t.pc = s.pc + 2 ∧ OnlyIPc s t) ∧
    (∃ t, exec (.addIVx x) s = .next t ∧ t.i.toNat = (s.i.toNat + (s.reg x).toNat) % 65536 ∧ t.pc = s.pc + 2 ∧
      OnlyIPc s t)

/-- R162 (the spec's decisions D1 and D10; log entries 5 and 13): FX29 points I at the glyph of VX, 5 bytes a glyph
from 0x050, VX not masked. -/
def Obligations.GlyphAddressOfVX : Prop :=
  ∀ (s : State) (x : Reg), ∃ t, exec (.ldFVx x) s = .next t ∧ t.i.toNat = 0x050 + 5 * (s.reg x).toNat ∧
    t.pc = s.pc + 2 ∧ OnlyIPc s t

/-- R163 (its bounds fault: the spec's decision D3; log entry 8): FX33 stores the three decimal digits of VX at I,
I+1, I+2, hundreds first, and no other byte changes; past 0xFFF it raises DATA_BOUNDS with nothing written. -/
def Obligations.BcdStoresDecimalDigits : Prop :=
  ∀ (s : State) (x : Reg),
    (s.i.toNat + 2 > 0xFFF → ∃ t, exec (.ldBVx x) s = .next t ∧ FaultsWith .dataBounds s t) ∧
    (s.i.toNat + 2 ≤ 0xFFF → ∃ t, exec (.ldBVx x) s = .next t ∧
      (t.memByte s.i.toNat).toNat * 100 + (t.memByte (s.i.toNat + 1)).toNat * 10 + (t.memByte (s.i.toNat + 2)).toNat =
        (s.reg x).toNat ∧
      (t.memByte (s.i.toNat + 1)).toNat ≤ 9 ∧ (t.memByte (s.i.toNat + 2)).toNat ≤ 9 ∧
      (∀ a, a ≠ s.i.toNat → a ≠ s.i.toNat + 1 → a ≠ s.i.toNat + 2 → t.memByte a = s.memByte a) ∧
      t.pc = s.pc + 2 ∧ OnlyMemPc s t)

/-- R164 (its bounds fault: the spec's decision D3; log entry 8): FX55 stores V0 to VX at I to I+X, I unchanged, and
no other byte changes; past 0xFFF it raises DATA_BOUNDS with nothing written. -/
def Obligations.StoresRegistersAtI : Prop :=
  ∀ (s : State) (x : Reg),
    (s.i.toNat + x.val > 0xFFF → ∃ t, exec (.ldMemVx x) s = .next t ∧ FaultsWith .dataBounds s t) ∧
    (s.i.toNat + x.val ≤ 0xFFF → ∃ t, exec (.ldMemVx x) s = .next t ∧
      (∀ k : Reg, k ≤ x → t.memByte (s.i.toNat + k.val) = s.reg k) ∧
      (∀ a, (a < s.i.toNat ∨ s.i.toNat + x.val < a) → t.memByte a = s.memByte a) ∧
      t.pc = s.pc + 2 ∧ OnlyMemPc s t)

/-- R165 (its bounds fault: the spec's decision D3; log entry 8): FX65 loads V0 to VX from I to I+X, I unchanged, and
the registers above VX keep their values; past 0xFFF it raises DATA_BOUNDS with no register written. -/
def Obligations.LoadsRegistersFromI : Prop :=
  ∀ (s : State) (x : Reg),
    (s.i.toNat + x.val > 0xFFF → ∃ t, exec (.ldVxMem x) s = .next t ∧ FaultsWith .dataBounds s t) ∧
    (s.i.toNat + x.val ≤ 0xFFF → ∃ t, exec (.ldVxMem x) s = .next t ∧
      (∀ k : Reg, k ≤ x → t.reg k = s.memByte (s.i.toNat + k.val)) ∧
      (∀ k : Reg, x < k → t.reg k = s.reg k) ∧ t.pc = s.pc + 2 ∧ OnlyRegsPc s t)

/-- From R164 and R165: FX65 after FX55 with the same X and I restores V0 to VX, whatever the registers held in
between. -/
def Obligations.LoadAfterStoreRestoresRegisters : Prop :=
  ∀ (s t u : State) (x : Reg) (v : Vector Byte 16), s.i.toNat + x.val ≤ 0xFFF → exec (.ldMemVx x) s = .next t →
    exec (.ldVxMem x) { t with v := v } = .next u →
    (∀ k : Reg, k ≤ x → u.reg k = s.reg k) ∧ (∀ k : Reg, x < k → u.reg k = v[k.val])

/-! ### Keypad and timers -/

/-- R180, R181 (a VX above 0xF: the spec's decision D9; log entry 12): EX9E skips exactly when the key numbered VX is
held, EXA1 exactly when it is not; a VX above 0xF names no key. -/
def Obligations.KeySkipsFollowTheKeypad : Prop :=
  ∀ (s : State) (x : Reg) (held : Bool), (held = true ↔ (s.reg x).toNat ≤ 0xF ∧ s.keys.getLsbD (s.reg x).toNat = true) →
    (∃ t, exec (.skp x) s = .next t ∧ t.pc = s.pc + (if held then 4 else 2) ∧ OnlyPc s t) ∧
    (∃ t, exec (.sknp x) s = .next t ∧ t.pc = s.pc + (if held then 2 else 4) ∧ OnlyPc s t)

/-- R183 (several keys held: the spec's decision D8; log entry 11): FX0A with no key held changes nothing at all; with
keys held it loads the least one's number into VX and goes on. -/
def Obligations.KeyWaitPollsTheKeypad : Prop :=
  ∀ (s : State) (x : Reg),
    ((∀ k < 16, s.keys.getLsbD k = false) → exec (.ldVxK x) s = .next s) ∧
    (∀ k < 16, s.keys.getLsbD k = true → (∀ j < k, s.keys.getLsbD j = false) →
      ∃ t, exec (.ldVxK x) s = .next t ∧
        (t.reg x).toNat = k ∧ (∀ j : Reg, j ≠ x → t.reg j = s.reg j) ∧ t.pc = s.pc + 2 ∧ OnlyRegsPc s t)

/-- R182, R184, R185: FX07 reads DT, FX15 writes it, FX18 writes ST. And R221 (the spec's decision D23; log entry 26):
the sound gate is on exactly when the ST written is not 0. -/
def Obligations.TimerMoves : Prop :=
  ∀ (s : State) (x : Reg),
    (∃ t, exec (.ldVxDt x) s = .next t ∧
      t.reg x = s.dt ∧ (∀ k : Reg, k ≠ x → t.reg k = s.reg k) ∧ t.pc = s.pc + 2 ∧ OnlyRegsPc s t) ∧
    (∃ t, exec (.ldDtVx x) s = .next t ∧ t = { s with dt := s.reg x, pc := s.pc + 2 }) ∧
    (∃ t, exec (.ldStVx x) s = .next t ∧ t = { s with st := s.reg x, pc := s.pc + 2 } ∧
      (t.soundGate = true ↔ s.reg x ≠ 0))

end
end

