-- ==== Sys2Proof/Laws/Decode.lean ====
section
/-! SUPPORT. What the encoder's forms look like field by field (R71, R72), and which bits of them a mask of R74 keeps. -/

namespace Sys2Proof

/-! ### The fields of each form -/

theorem toNat_encodeXY (f : BitVec 4) (x y : Reg) (k : BitVec 4) :
    (encodeXY f x y k).toNat = f.toNat * 4096 + x.val * 256 + y.val * 16 + k.toNat := by
  have := x.isLt; have := y.isLt; have := k.isLt; have := f.isLt
  simp only [encodeXY, regBits, BitVec.toNat_append, BitVec.toNat_ofFin]
  rw [← Nat.shiftLeft_add_eq_or_of_lt k.isLt, ← Nat.shiftLeft_add_eq_or_of_lt (i := 4) y.isLt,
    ← Nat.shiftLeft_add_eq_or_of_lt (i := 4) x.isLt]
  simp only [Nat.shiftLeft_eq]; omega

theorem toNat_encodeXNN (f : BitVec 4) (x : Reg) (nn : Byte) :
    (encodeXNN f x nn).toNat = f.toNat * 4096 + x.val * 256 + nn.toNat := by
  simp only [encodeXNN, regBits, BitVec.toNat_append, BitVec.toNat_ofFin]
  rw [← Nat.shiftLeft_add_eq_or_of_lt nn.isLt, ← Nat.shiftLeft_add_eq_or_of_lt (i := 4) x.isLt]
  simp only [Nat.shiftLeft_eq]; omega

theorem toNat_encodeNNN (f : BitVec 4) (nnn : BitVec 12) :
    (encodeNNN f nnn).toNat = f.toNat * 4096 + nnn.toNat := by
  simp only [encodeNNN, BitVec.toNat_append]
  rw [← Nat.shiftLeft_add_eq_or_of_lt nnn.isLt]
  simp only [Nat.shiftLeft_eq]

/-! ### The fields of a word, as numbers -/

theorem toNat_nibble1 (op : Word) : (nibble1 op).toNat = op.toNat / 4096 := by
  have := op.isLt
  simp [nibble1, Nat.shiftRight_eq_div_pow]; omega

theorem toNat_nibble4 (op : Word) : (nibble4 op).toNat = op.toNat % 16 := by
  simp [nibble4]

theorem val_fieldX (op : Word) : (fieldX op).val = op.toNat / 256 % 16 := by
  simp [fieldX, nibble2, Nat.shiftRight_eq_div_pow]

theorem val_fieldY (op : Word) : (fieldY op).val = op.toNat / 16 % 16 := by
  simp [fieldY, nibble3, Nat.shiftRight_eq_div_pow]

theorem fieldN_eq (op : Word) : fieldN op = op.toNat % 16 := toNat_nibble4 op

theorem toNat_fieldNN (op : Word) : (fieldNN op).toNat = op.toNat % 256 := by
  simp [fieldNN]

theorem toNat_fieldNNN (op : Word) : (fieldNNN op).toNat = op.toNat % 4096 := by
  simp [fieldNNN]

/-! ### Bytes and words -/

theorem toNat_wordOfBytes (hi lo : Byte) : (wordOfBytes hi lo).toNat = hi.toNat * 256 + lo.toNat := by
  simp only [wordOfBytes, BitVec.toNat_append]
  rw [← Nat.shiftLeft_add_eq_or_of_lt lo.isLt, Nat.shiftLeft_eq]

@[simp] theorem highByte_wordOfBytes (hi lo : Byte) : highByte (wordOfBytes hi lo) = hi :=
  BitVec.extractLsb'_append_eq_left

@[simp] theorem lowByte_wordOfBytes (hi lo : Byte) : lowByte (wordOfBytes hi lo) = lo :=
  BitVec.extractLsb'_append_eq_right

/-- A word is its two bytes, the high one first (R55). -/
@[simp] theorem wordOfBytes_bytes (w : Word) : wordOfBytes (highByte w) (lowByte w) = w := by
  apply BitVec.eq_of_toNat_eq
  have := w.isLt
  rw [toNat_wordOfBytes]
  simp [highByte, lowByte, Nat.shiftRight_eq_div_pow]; omega

/-! ### What the masks of R74 keep -/

theorem encodeNNN_mask (f : BitVec 4) (nnn : BitVec 12) : encodeNNN f nnn &&& 0xF000 = f ++ (0 : BitVec 12) := by
  change (f ++ nnn : BitVec (4 + 12)) &&& ((0xF : BitVec 4) ++ (0 : BitVec 12)) = _
  rw [BitVec.and_append]
  congr 1
  · exact BitVec.and_allOnes
  · exact BitVec.and_zero

theorem encodeXNN_mask_high (f : BitVec 4) (x : Reg) (nn : Byte) :
    encodeXNN f x nn &&& 0xF000 = f ++ (0 : BitVec 4) ++ (0 : BitVec 8) := by
  change (f ++ regBits x ++ nn : BitVec (4 + 4 + 8)) &&& ((0xF : BitVec 4) ++ (0 : BitVec 4) ++ (0 : BitVec 8)) = _
  rw [BitVec.and_append, BitVec.and_append]
  congr 1
  · congr 1
    · exact BitVec.and_allOnes
    · exact BitVec.and_zero
  · exact BitVec.and_zero

theorem encodeXNN_mask_low (f : BitVec 4) (x : Reg) (nn : Byte) :
    encodeXNN f x nn &&& 0xF0FF = f ++ (0 : BitVec 4) ++ nn := by
  change (f ++ regBits x ++ nn : BitVec (4 + 4 + 8)) &&& ((0xF : BitVec 4) ++ (0 : BitVec 4) ++ (0xFF : BitVec 8)) = _
  rw [BitVec.and_append, BitVec.and_append]
  congr 1
  · congr 1
    · exact BitVec.and_allOnes
    · exact BitVec.and_zero
  · exact BitVec.and_allOnes

theorem encodeXY_mask (f : BitVec 4) (x y : Reg) (k : BitVec 4) :
    encodeXY f x y k &&& 0xF00F = f ++ (0 : BitVec 4) ++ (0 : BitVec 4) ++ k := by
  change (f ++ regBits x ++ regBits y ++ k : BitVec (4 + 4 + 4 + 4)) &&&
    ((0xF : BitVec 4) ++ (0 : BitVec 4) ++ (0 : BitVec 4) ++ (0xF : BitVec 4)) = _
  rw [BitVec.and_append, BitVec.and_append, BitVec.and_append]
  congr 1
  · congr 1
    · congr 1
      · exact BitVec.and_allOnes
      · exact BitVec.and_zero
    · exact BitVec.and_zero
  · exact BitVec.and_allOnes

theorem encodeXY_mask_high (f : BitVec 4) (x y : Reg) (k : BitVec 4) :
    encodeXY f x y k &&& 0xF000 = f ++ (0 : BitVec 4) ++ (0 : BitVec 4) ++ (0 : BitVec 4) := by
  change (f ++ regBits x ++ regBits y ++ k : BitVec (4 + 4 + 4 + 4)) &&&
    ((0xF : BitVec 4) ++ (0 : BitVec 4) ++ (0 : BitVec 4) ++ (0 : BitVec 4)) = _
  rw [BitVec.and_append, BitVec.and_append, BitVec.and_append]
  congr 1
  · congr 1
    · congr 1
      · exact BitVec.and_allOnes
      · exact BitVec.and_zero
    · exact BitVec.and_zero
  · exact BitVec.and_zero

end Sys2Proof
end

