-- ==== Sys2Proof/Laws/Memory.lean ====
section
/-! SUPPORT. What a read sees after a write, and that every memory operation keeps the canonical form. -/

namespace Sys2Proof.Machine.Memory

variable {font : Font} {m : Memory} {a b : Nat} {v : Byte}

/-- The font region's reset contents (R242). -/
theorem resetByte_font (h1 : 0x050 ≤ a) (h2 : a ≤ 0x09F) : resetByte font a = font[a - 0x050]'(by omega) := by
  unfold resetByte
  exact dif_pos ⟨h1, by show a < 0x050 + 80; omega⟩

/-- Every other byte's reset contents (R242). -/
theorem resetByte_other (h : a < 0x050 ∨ 0x09F < a) : resetByte font a = 0 := by
  unfold resetByte
  refine dif_neg fun c => ?_
  have h1 : 0x050 ≤ a := c.1
  have h2 : a < 0x050 + 80 := c.2
  omega

theorem find_insert : find b (insert a v m) = if b = a then some v else find b m := by
  induction m with
  | nil => simp [insert, find]
  | cons c rest ih =>
    obtain ⟨d, w⟩ := c
    simp only [insert]
    split
    · simp [find]
    · split
      · subst d; simp only [find]; split <;> simp_all
      · rename_i hne
        simp only [find, ih]
        by_cases hbd : b = d
        · simp [hbd, Ne.symm hne]
        · simp [hbd]

theorem find_erase : find b (erase a m) = if b = a then none else find b m := by
  induction m with
  | nil => simp [erase, find]
  | cons c rest ih =>
    obtain ⟨d, w⟩ := c
    simp only [erase, List.filter_cons] at *
    by_cases h : d = a
    · subst h; simp only [bne_self_eq_false, Bool.false_eq_true, if_false, ih, find]; split <;> simp_all
    · simp only [bne_iff_ne, ne_eq, h, not_false_eq_true, if_true, find, ih]
      split <;> simp_all

/-- A write changes the byte at its own address and no other (R54). -/
theorem read_write : read font (write font a v m) b = if b = a then v else read font m b := by
  unfold read write
  split
  · rw [find_erase]; split <;> simp_all
  · rw [find_insert]; split <;> simp_all

theorem read_write_same : read font (write font a v m) a = v := by simp [read_write]

theorem read_write_of_ne (h : b ≠ a) : read font (write font a v m) b = read font m b := by simp [read_write, h]

/-- An unlisted memory reads as the reset contents. -/
@[simp] theorem read_nil : read font [] a = resetByte font a := rfl

/-- A run of byte writes changes exactly the bytes it covers. -/
theorem read_writeBytes (vs : List Byte) : ∀ (a b : Nat),
    read font (writeBytes font a vs m) b = if a ≤ b then (vs[b - a]?).getD (read font m b) else read font m b := by
  induction vs with
  | nil => intro a b; simp [writeBytes]
  | cons w ws ih =>
    intro a b
    simp only [writeBytes, read_write, ih]
    by_cases h : b = a
    · subst h; simp
    · by_cases h2 : a ≤ b
      · have h3 : a + 1 ≤ b := by omega
        have h4 : b - a = (b - (a + 1)) + 1 := by omega
        simp [h, h2, h3, h4]
      · have h3 : ¬ a + 1 ≤ b := by omega
        simp [h, h2, h3]

theorem rising_cons {c : Host.Cell} : rising (c :: m) = true ↔ (∀ d ∈ m, c.1 < d.1) ∧ rising m = true := by
  simp [rising]

theorem mem_insert {d : Host.Cell} (h : d ∈ insert a v m) : d = (a, v) ∨ d ∈ m := by
  induction m with
  | nil => simpa [insert] using h
  | cons c rest ih =>
    simp only [insert] at h
    split at h
    · simpa using h
    · split at h
      · simp only [List.mem_cons] at h ⊢; tauto
      · simp only [List.mem_cons] at h ⊢
        rcases h with h | h
        · tauto
        · have := ih h; tauto

theorem rising_insert (h : rising m = true) : rising (insert a v m) = true := by
  induction m with
  | nil => rfl
  | cons c rest ih =>
    rw [rising_cons] at h
    simp only [insert]
    split
    · rename_i hlt
      refine rising_cons.2 ⟨fun d hd => ?_, rising_cons.2 h⟩
      rcases List.mem_cons.1 hd with rfl | hd
      · exact hlt
      · exact lt_trans hlt (h.1 d hd)
    · split
      · rename_i _ heq
        exact rising_cons.2 ⟨fun d hd => by simpa [heq] using h.1 d hd, h.2⟩
      · rename_i hlt hne
        refine rising_cons.2 ⟨fun d hd => ?_, ih h.2⟩
        rcases mem_insert hd with rfl | hd
        · show c.1 < a; omega
        · exact h.1 d hd

theorem rising_filter (p : Host.Cell → Bool) (h : rising m = true) : rising (m.filter p) = true := by
  induction m with
  | nil => rfl
  | cons c rest ih =>
    rw [rising_cons] at h
    rw [List.filter_cons]
    split
    · exact rising_cons.2 ⟨fun d hd => h.1 d (List.mem_filter.1 hd).1, ih h.2⟩
    · exact ih h.2

theorem wf_iff : wf font m = true ↔
    rising m = true ∧ ∀ c ∈ m, c.1 ≤ Config.lastAddress ∧ c.2 ≠ resetByte font c.1 := by
  simp [wf]

@[simp] theorem wf_nil : wf font [] = true := rfl

/-- A write within the address space keeps the canonical form. -/
theorem wf_write (h : wf font m = true) (ha : a ≤ Config.lastAddress) : wf font (write font a v m) = true := by
  rw [wf_iff] at h ⊢
  unfold write
  split
  · exact ⟨rising_filter _ h.1, fun c hc => h.2 c (List.mem_filter.1 hc).1⟩
  · rename_i hv
    refine ⟨rising_insert h.1, fun c hc => ?_⟩
    rcases mem_insert hc with rfl | hc
    · exact ⟨ha, hv⟩
    · exact h.2 c hc

/-- A run of byte writes within the address space keeps the canonical form. -/
theorem wf_writeBytes (vs : List Byte) : ∀ (a : Nat), wf font m = true → a + vs.length ≤ Config.memSize →
    wf font (writeBytes font a vs m) = true := by
  induction vs with
  | nil => intro a h _; exact h
  | cons w ws ih =>
    intro a h ha
    simp only [List.length_cons] at ha
    refine wf_write (ih (a + 1) h (by omega)) ?_
    unfold Config.memSize at ha; unfold Config.lastAddress; omega

/-- A canonical memory finds every cell it lists. -/
theorem rising_find (h : rising m = true) {c : Host.Cell} (hc : c ∈ m) : find c.1 m = some c.2 := by
  induction m with
  | nil => cases hc
  | cons d rest ih =>
    obtain ⟨e, w⟩ := d
    rw [rising_cons] at h
    rcases List.mem_cons.1 hc with rfl | hc
    · simp [find]
    · have := h.1 c hc
      have hne : c.1 ≠ e := by simp only at this; omega
      simp [find, hne, ih h.2 hc]

end Sys2Proof.Machine.Memory
end

