-- ==== Sys2Proof/Laws/State.lean ====
section
/-! SUPPORT. One lemma per field of the state per update: what the update leaves in that field. -/

namespace Sys2Proof.Machine.State

variable (s : State)

/-! ### setReg -/

@[simp] theorem setReg_v (k : Reg) (b : Byte) : (s.setReg k b).v = s.v.set k.val b := rfl
@[simp] theorem setReg_i (k : Reg) (b : Byte) : (s.setReg k b).i = s.i := rfl
@[simp] theorem setReg_pc (k : Reg) (b : Byte) : (s.setReg k b).pc = s.pc := rfl
@[simp] theorem setReg_stack (k : Reg) (b : Byte) : (s.setReg k b).stack = s.stack := rfl
@[simp] theorem setReg_sp (k : Reg) (b : Byte) : (s.setReg k b).sp = s.sp := rfl
@[simp] theorem setReg_dt (k : Reg) (b : Byte) : (s.setReg k b).dt = s.dt := rfl
@[simp] theorem setReg_st (k : Reg) (b : Byte) : (s.setReg k b).st = s.st := rfl
@[simp] theorem setReg_opcode (k : Reg) (b : Byte) : (s.setReg k b).opcode = s.opcode := rfl
@[simp] theorem setReg_mem (k : Reg) (b : Byte) : (s.setReg k b).mem = s.mem := rfl
@[simp] theorem setReg_fb (k : Reg) (b : Byte) : (s.setReg k b).fb = s.fb := rfl
@[simp] theorem setReg_run (k : Reg) (b : Byte) : (s.setReg k b).run = s.run := rfl
@[simp] theorem setReg_faultCause (k : Reg) (b : Byte) : (s.setReg k b).faultCause = s.faultCause := rfl
@[simp] theorem setReg_faultPc (k : Reg) (b : Byte) : (s.setReg k b).faultPc = s.faultPc := rfl
@[simp] theorem setReg_rom (k : Reg) (b : Byte) : (s.setReg k b).rom = s.rom := rfl
@[simp] theorem setReg_cfg (k : Reg) (b : Byte) : (s.setReg k b).cfg = s.cfg := rfl
@[simp] theorem setReg_keys (k : Reg) (b : Byte) : (s.setReg k b).keys = s.keys := rfl
@[simp] theorem setReg_rnd (k : Reg) (b : Byte) : (s.setReg k b).rnd = s.rnd := rfl
@[simp] theorem setReg_agenda (k : Reg) (b : Byte) : (s.setReg k b).agenda = s.agenda := rfl
@[simp] theorem setReg_calls (k : Reg) (b : Byte) : (s.setReg k b).calls = s.calls := rfl
@[simp] theorem setReg_result (k : Reg) (b : Byte) : (s.setReg k b).result = s.result := rfl
@[simp] theorem setReg_diag (k : Reg) (b : Byte) : (s.setReg k b).diag = s.diag := rfl

/-! ### setI -/

@[simp] theorem setI_v (w : Word) : (s.setI w).v = s.v := rfl
@[simp] theorem setI_i (w : Word) : (s.setI w).i = w := rfl
@[simp] theorem setI_pc (w : Word) : (s.setI w).pc = s.pc := rfl
@[simp] theorem setI_stack (w : Word) : (s.setI w).stack = s.stack := rfl
@[simp] theorem setI_sp (w : Word) : (s.setI w).sp = s.sp := rfl
@[simp] theorem setI_dt (w : Word) : (s.setI w).dt = s.dt := rfl
@[simp] theorem setI_st (w : Word) : (s.setI w).st = s.st := rfl
@[simp] theorem setI_opcode (w : Word) : (s.setI w).opcode = s.opcode := rfl
@[simp] theorem setI_mem (w : Word) : (s.setI w).mem = s.mem := rfl
@[simp] theorem setI_fb (w : Word) : (s.setI w).fb = s.fb := rfl
@[simp] theorem setI_run (w : Word) : (s.setI w).run = s.run := rfl
@[simp] theorem setI_faultCause (w : Word) : (s.setI w).faultCause = s.faultCause := rfl
@[simp] theorem setI_faultPc (w : Word) : (s.setI w).faultPc = s.faultPc := rfl
@[simp] theorem setI_rom (w : Word) : (s.setI w).rom = s.rom := rfl
@[simp] theorem setI_cfg (w : Word) : (s.setI w).cfg = s.cfg := rfl
@[simp] theorem setI_keys (w : Word) : (s.setI w).keys = s.keys := rfl
@[simp] theorem setI_rnd (w : Word) : (s.setI w).rnd = s.rnd := rfl
@[simp] theorem setI_agenda (w : Word) : (s.setI w).agenda = s.agenda := rfl
@[simp] theorem setI_calls (w : Word) : (s.setI w).calls = s.calls := rfl
@[simp] theorem setI_result (w : Word) : (s.setI w).result = s.result := rfl
@[simp] theorem setI_diag (w : Word) : (s.setI w).diag = s.diag := rfl

/-! ### setPc -/

@[simp] theorem setPc_v (w : Word) : (s.setPc w).v = s.v := rfl
@[simp] theorem setPc_i (w : Word) : (s.setPc w).i = s.i := rfl
@[simp] theorem setPc_pc (w : Word) : (s.setPc w).pc = w := rfl
@[simp] theorem setPc_stack (w : Word) : (s.setPc w).stack = s.stack := rfl
@[simp] theorem setPc_sp (w : Word) : (s.setPc w).sp = s.sp := rfl
@[simp] theorem setPc_dt (w : Word) : (s.setPc w).dt = s.dt := rfl
@[simp] theorem setPc_st (w : Word) : (s.setPc w).st = s.st := rfl
@[simp] theorem setPc_opcode (w : Word) : (s.setPc w).opcode = s.opcode := rfl
@[simp] theorem setPc_mem (w : Word) : (s.setPc w).mem = s.mem := rfl
@[simp] theorem setPc_fb (w : Word) : (s.setPc w).fb = s.fb := rfl
@[simp] theorem setPc_run (w : Word) : (s.setPc w).run = s.run := rfl
@[simp] theorem setPc_faultCause (w : Word) : (s.setPc w).faultCause = s.faultCause := rfl
@[simp] theorem setPc_faultPc (w : Word) : (s.setPc w).faultPc = s.faultPc := rfl
@[simp] theorem setPc_rom (w : Word) : (s.setPc w).rom = s.rom := rfl
@[simp] theorem setPc_cfg (w : Word) : (s.setPc w).cfg = s.cfg := rfl
@[simp] theorem setPc_keys (w : Word) : (s.setPc w).keys = s.keys := rfl
@[simp] theorem setPc_rnd (w : Word) : (s.setPc w).rnd = s.rnd := rfl
@[simp] theorem setPc_agenda (w : Word) : (s.setPc w).agenda = s.agenda := rfl
@[simp] theorem setPc_calls (w : Word) : (s.setPc w).calls = s.calls := rfl
@[simp] theorem setPc_result (w : Word) : (s.setPc w).result = s.result := rfl
@[simp] theorem setPc_diag (w : Word) : (s.setPc w).diag = s.diag := rfl

/-! ### setDt -/

@[simp] theorem setDt_v (b : Byte) : (s.setDt b).v = s.v := rfl
@[simp] theorem setDt_i (b : Byte) : (s.setDt b).i = s.i := rfl
@[simp] theorem setDt_pc (b : Byte) : (s.setDt b).pc = s.pc := rfl
@[simp] theorem setDt_stack (b : Byte) : (s.setDt b).stack = s.stack := rfl
@[simp] theorem setDt_sp (b : Byte) : (s.setDt b).sp = s.sp := rfl
@[simp] theorem setDt_dt (b : Byte) : (s.setDt b).dt = b := rfl
@[simp] theorem setDt_st (b : Byte) : (s.setDt b).st = s.st := rfl
@[simp] theorem setDt_opcode (b : Byte) : (s.setDt b).opcode = s.opcode := rfl
@[simp] theorem setDt_mem (b : Byte) : (s.setDt b).mem = s.mem := rfl
@[simp] theorem setDt_fb (b : Byte) : (s.setDt b).fb = s.fb := rfl
@[simp] theorem setDt_run (b : Byte) : (s.setDt b).run = s.run := rfl
@[simp] theorem setDt_faultCause (b : Byte) : (s.setDt b).faultCause = s.faultCause := rfl
@[simp] theorem setDt_faultPc (b : Byte) : (s.setDt b).faultPc = s.faultPc := rfl
@[simp] theorem setDt_rom (b : Byte) : (s.setDt b).rom = s.rom := rfl
@[simp] theorem setDt_cfg (b : Byte) : (s.setDt b).cfg = s.cfg := rfl
@[simp] theorem setDt_keys (b : Byte) : (s.setDt b).keys = s.keys := rfl
@[simp] theorem setDt_rnd (b : Byte) : (s.setDt b).rnd = s.rnd := rfl
@[simp] theorem setDt_agenda (b : Byte) : (s.setDt b).agenda = s.agenda := rfl
@[simp] theorem setDt_calls (b : Byte) : (s.setDt b).calls = s.calls := rfl
@[simp] theorem setDt_result (b : Byte) : (s.setDt b).result = s.result := rfl
@[simp] theorem setDt_diag (b : Byte) : (s.setDt b).diag = s.diag := rfl

/-! ### setSt -/

@[simp] theorem setSt_v (b : Byte) : (s.setSt b).v = s.v := rfl
@[simp] theorem setSt_i (b : Byte) : (s.setSt b).i = s.i := rfl
@[simp] theorem setSt_pc (b : Byte) : (s.setSt b).pc = s.pc := rfl
@[simp] theorem setSt_stack (b : Byte) : (s.setSt b).stack = s.stack := rfl
@[simp] theorem setSt_sp (b : Byte) : (s.setSt b).sp = s.sp := rfl
@[simp] theorem setSt_dt (b : Byte) : (s.setSt b).dt = s.dt := rfl
@[simp] theorem setSt_st (b : Byte) : (s.setSt b).st = b := rfl
@[simp] theorem setSt_opcode (b : Byte) : (s.setSt b).opcode = s.opcode := rfl
@[simp] theorem setSt_mem (b : Byte) : (s.setSt b).mem = s.mem := rfl
@[simp] theorem setSt_fb (b : Byte) : (s.setSt b).fb = s.fb := rfl
@[simp] theorem setSt_run (b : Byte) : (s.setSt b).run = s.run := rfl
@[simp] theorem setSt_faultCause (b : Byte) : (s.setSt b).faultCause = s.faultCause := rfl
@[simp] theorem setSt_faultPc (b : Byte) : (s.setSt b).faultPc = s.faultPc := rfl
@[simp] theorem setSt_rom (b : Byte) : (s.setSt b).rom = s.rom := rfl
@[simp] theorem setSt_cfg (b : Byte) : (s.setSt b).cfg = s.cfg := rfl
@[simp] theorem setSt_keys (b : Byte) : (s.setSt b).keys = s.keys := rfl
@[simp] theorem setSt_rnd (b : Byte) : (s.setSt b).rnd = s.rnd := rfl
@[simp] theorem setSt_agenda (b : Byte) : (s.setSt b).agenda = s.agenda := rfl
@[simp] theorem setSt_calls (b : Byte) : (s.setSt b).calls = s.calls := rfl
@[simp] theorem setSt_result (b : Byte) : (s.setSt b).result = s.result := rfl
@[simp] theorem setSt_diag (b : Byte) : (s.setSt b).diag = s.diag := rfl

/-! ### memWrite -/

@[simp] theorem memWrite_v (a : Nat) (b : Byte) : (s.memWrite a b).v = s.v := rfl
@[simp] theorem memWrite_i (a : Nat) (b : Byte) : (s.memWrite a b).i = s.i := rfl
@[simp] theorem memWrite_pc (a : Nat) (b : Byte) : (s.memWrite a b).pc = s.pc := rfl
@[simp] theorem memWrite_stack (a : Nat) (b : Byte) : (s.memWrite a b).stack = s.stack := rfl
@[simp] theorem memWrite_sp (a : Nat) (b : Byte) : (s.memWrite a b).sp = s.sp := rfl
@[simp] theorem memWrite_dt (a : Nat) (b : Byte) : (s.memWrite a b).dt = s.dt := rfl
@[simp] theorem memWrite_st (a : Nat) (b : Byte) : (s.memWrite a b).st = s.st := rfl
@[simp] theorem memWrite_opcode (a : Nat) (b : Byte) : (s.memWrite a b).opcode = s.opcode := rfl
@[simp] theorem memWrite_mem (a : Nat) (b : Byte) : (s.memWrite a b).mem = Memory.write s.cfg.font a b s.mem := rfl
@[simp] theorem memWrite_fb (a : Nat) (b : Byte) : (s.memWrite a b).fb = s.fb := rfl
@[simp] theorem memWrite_run (a : Nat) (b : Byte) : (s.memWrite a b).run = s.run := rfl
@[simp] theorem memWrite_faultCause (a : Nat) (b : Byte) : (s.memWrite a b).faultCause = s.faultCause := rfl
@[simp] theorem memWrite_faultPc (a : Nat) (b : Byte) : (s.memWrite a b).faultPc = s.faultPc := rfl
@[simp] theorem memWrite_rom (a : Nat) (b : Byte) : (s.memWrite a b).rom = s.rom := rfl
@[simp] theorem memWrite_cfg (a : Nat) (b : Byte) : (s.memWrite a b).cfg = s.cfg := rfl
@[simp] theorem memWrite_keys (a : Nat) (b : Byte) : (s.memWrite a b).keys = s.keys := rfl
@[simp] theorem memWrite_rnd (a : Nat) (b : Byte) : (s.memWrite a b).rnd = s.rnd := rfl
@[simp] theorem memWrite_agenda (a : Nat) (b : Byte) : (s.memWrite a b).agenda = s.agenda := rfl
@[simp] theorem memWrite_calls (a : Nat) (b : Byte) : (s.memWrite a b).calls = s.calls := rfl
@[simp] theorem memWrite_result (a : Nat) (b : Byte) : (s.memWrite a b).result = s.result := rfl
@[simp] theorem memWrite_diag (a : Nat) (b : Byte) : (s.memWrite a b).diag = s.diag := rfl

/-! ### setFb -/

@[simp] theorem setFb_v (f : Framebuffer) : (s.setFb f).v = s.v := rfl
@[simp] theorem setFb_i (f : Framebuffer) : (s.setFb f).i = s.i := rfl
@[simp] theorem setFb_pc (f : Framebuffer) : (s.setFb f).pc = s.pc := rfl
@[simp] theorem setFb_stack (f : Framebuffer) : (s.setFb f).stack = s.stack := rfl
@[simp] theorem setFb_sp (f : Framebuffer) : (s.setFb f).sp = s.sp := rfl
@[simp] theorem setFb_dt (f : Framebuffer) : (s.setFb f).dt = s.dt := rfl
@[simp] theorem setFb_st (f : Framebuffer) : (s.setFb f).st = s.st := rfl
@[simp] theorem setFb_opcode (f : Framebuffer) : (s.setFb f).opcode = s.opcode := rfl
@[simp] theorem setFb_mem (f : Framebuffer) : (s.setFb f).mem = s.mem := rfl
@[simp] theorem setFb_fb (f : Framebuffer) : (s.setFb f).fb = f := rfl
@[simp] theorem setFb_run (f : Framebuffer) : (s.setFb f).run = s.run := rfl
@[simp] theorem setFb_faultCause (f : Framebuffer) : (s.setFb f).faultCause = s.faultCause := rfl
@[simp] theorem setFb_faultPc (f : Framebuffer) : (s.setFb f).faultPc = s.faultPc := rfl
@[simp] theorem setFb_rom (f : Framebuffer) : (s.setFb f).rom = s.rom := rfl
@[simp] theorem setFb_cfg (f : Framebuffer) : (s.setFb f).cfg = s.cfg := rfl
@[simp] theorem setFb_keys (f : Framebuffer) : (s.setFb f).keys = s.keys := rfl
@[simp] theorem setFb_rnd (f : Framebuffer) : (s.setFb f).rnd = s.rnd := rfl
@[simp] theorem setFb_agenda (f : Framebuffer) : (s.setFb f).agenda = s.agenda := rfl
@[simp] theorem setFb_calls (f : Framebuffer) : (s.setFb f).calls = s.calls := rfl
@[simp] theorem setFb_result (f : Framebuffer) : (s.setFb f).result = s.result := rfl
@[simp] theorem setFb_diag (f : Framebuffer) : (s.setFb f).diag = s.diag := rfl

/-! ### setRun -/

@[simp] theorem setRun_v (r : RunState) : (s.setRun r).v = s.v := rfl
@[simp] theorem setRun_i (r : RunState) : (s.setRun r).i = s.i := rfl
@[simp] theorem setRun_pc (r : RunState) : (s.setRun r).pc = s.pc := rfl
@[simp] theorem setRun_stack (r : RunState) : (s.setRun r).stack = s.stack := rfl
@[simp] theorem setRun_sp (r : RunState) : (s.setRun r).sp = s.sp := rfl
@[simp] theorem setRun_dt (r : RunState) : (s.setRun r).dt = s.dt := rfl
@[simp] theorem setRun_st (r : RunState) : (s.setRun r).st = s.st := rfl
@[simp] theorem setRun_opcode (r : RunState) : (s.setRun r).opcode = s.opcode := rfl
@[simp] theorem setRun_mem (r : RunState) : (s.setRun r).mem = s.mem := rfl
@[simp] theorem setRun_fb (r : RunState) : (s.setRun r).fb = s.fb := rfl
@[simp] theorem setRun_run (r : RunState) : (s.setRun r).run = r := rfl
@[simp] theorem setRun_faultCause (r : RunState) : (s.setRun r).faultCause = s.faultCause := rfl
@[simp] theorem setRun_faultPc (r : RunState) : (s.setRun r).faultPc = s.faultPc := rfl
@[simp] theorem setRun_rom (r : RunState) : (s.setRun r).rom = s.rom := rfl
@[simp] theorem setRun_cfg (r : RunState) : (s.setRun r).cfg = s.cfg := rfl
@[simp] theorem setRun_keys (r : RunState) : (s.setRun r).keys = s.keys := rfl
@[simp] theorem setRun_rnd (r : RunState) : (s.setRun r).rnd = s.rnd := rfl
@[simp] theorem setRun_agenda (r : RunState) : (s.setRun r).agenda = s.agenda := rfl
@[simp] theorem setRun_calls (r : RunState) : (s.setRun r).calls = s.calls := rfl
@[simp] theorem setRun_result (r : RunState) : (s.setRun r).result = s.result := rfl
@[simp] theorem setRun_diag (r : RunState) : (s.setRun r).diag = s.diag := rfl

/-! ### setOpcode -/

@[simp] theorem setOpcode_v (w : Word) : (s.setOpcode w).v = s.v := rfl
@[simp] theorem setOpcode_i (w : Word) : (s.setOpcode w).i = s.i := rfl
@[simp] theorem setOpcode_pc (w : Word) : (s.setOpcode w).pc = s.pc := rfl
@[simp] theorem setOpcode_stack (w : Word) : (s.setOpcode w).stack = s.stack := rfl
@[simp] theorem setOpcode_sp (w : Word) : (s.setOpcode w).sp = s.sp := rfl
@[simp] theorem setOpcode_dt (w : Word) : (s.setOpcode w).dt = s.dt := rfl
@[simp] theorem setOpcode_st (w : Word) : (s.setOpcode w).st = s.st := rfl
@[simp] theorem setOpcode_opcode (w : Word) : (s.setOpcode w).opcode = w := rfl
@[simp] theorem setOpcode_mem (w : Word) : (s.setOpcode w).mem = s.mem := rfl
@[simp] theorem setOpcode_fb (w : Word) : (s.setOpcode w).fb = s.fb := rfl
@[simp] theorem setOpcode_run (w : Word) : (s.setOpcode w).run = s.run := rfl
@[simp] theorem setOpcode_faultCause (w : Word) : (s.setOpcode w).faultCause = s.faultCause := rfl
@[simp] theorem setOpcode_faultPc (w : Word) : (s.setOpcode w).faultPc = s.faultPc := rfl
@[simp] theorem setOpcode_rom (w : Word) : (s.setOpcode w).rom = s.rom := rfl
@[simp] theorem setOpcode_cfg (w : Word) : (s.setOpcode w).cfg = s.cfg := rfl
@[simp] theorem setOpcode_keys (w : Word) : (s.setOpcode w).keys = s.keys := rfl
@[simp] theorem setOpcode_rnd (w : Word) : (s.setOpcode w).rnd = s.rnd := rfl
@[simp] theorem setOpcode_agenda (w : Word) : (s.setOpcode w).agenda = s.agenda := rfl
@[simp] theorem setOpcode_calls (w : Word) : (s.setOpcode w).calls = s.calls := rfl
@[simp] theorem setOpcode_result (w : Word) : (s.setOpcode w).result = s.result := rfl
@[simp] theorem setOpcode_diag (w : Word) : (s.setOpcode w).diag = s.diag := rfl

/-! ### answer -/

@[simp] theorem answer_v (r : OpResult) : (s.answer r).v = s.v := rfl
@[simp] theorem answer_i (r : OpResult) : (s.answer r).i = s.i := rfl
@[simp] theorem answer_pc (r : OpResult) : (s.answer r).pc = s.pc := rfl
@[simp] theorem answer_stack (r : OpResult) : (s.answer r).stack = s.stack := rfl
@[simp] theorem answer_sp (r : OpResult) : (s.answer r).sp = s.sp := rfl
@[simp] theorem answer_dt (r : OpResult) : (s.answer r).dt = s.dt := rfl
@[simp] theorem answer_st (r : OpResult) : (s.answer r).st = s.st := rfl
@[simp] theorem answer_opcode (r : OpResult) : (s.answer r).opcode = s.opcode := rfl
@[simp] theorem answer_mem (r : OpResult) : (s.answer r).mem = s.mem := rfl
@[simp] theorem answer_fb (r : OpResult) : (s.answer r).fb = s.fb := rfl
@[simp] theorem answer_run (r : OpResult) : (s.answer r).run = s.run := rfl
@[simp] theorem answer_faultCause (r : OpResult) : (s.answer r).faultCause = s.faultCause := rfl
@[simp] theorem answer_faultPc (r : OpResult) : (s.answer r).faultPc = s.faultPc := rfl
@[simp] theorem answer_rom (r : OpResult) : (s.answer r).rom = s.rom := rfl
@[simp] theorem answer_cfg (r : OpResult) : (s.answer r).cfg = s.cfg := rfl
@[simp] theorem answer_keys (r : OpResult) : (s.answer r).keys = s.keys := rfl
@[simp] theorem answer_rnd (r : OpResult) : (s.answer r).rnd = s.rnd := rfl
@[simp] theorem answer_agenda (r : OpResult) : (s.answer r).agenda = s.agenda := rfl
@[simp] theorem answer_calls (r : OpResult) : (s.answer r).calls = s.calls := rfl
@[simp] theorem answer_result (r : OpResult) : (s.answer r).result = r := rfl
@[simp] theorem answer_diag (r : OpResult) : (s.answer r).diag = s.diag := rfl

/-! ### emit -/

@[simp] theorem emit_v (e : DiagEvent) : (s.emit e).v = s.v := rfl
@[simp] theorem emit_i (e : DiagEvent) : (s.emit e).i = s.i := rfl
@[simp] theorem emit_pc (e : DiagEvent) : (s.emit e).pc = s.pc := rfl
@[simp] theorem emit_stack (e : DiagEvent) : (s.emit e).stack = s.stack := rfl
@[simp] theorem emit_sp (e : DiagEvent) : (s.emit e).sp = s.sp := rfl
@[simp] theorem emit_dt (e : DiagEvent) : (s.emit e).dt = s.dt := rfl
@[simp] theorem emit_st (e : DiagEvent) : (s.emit e).st = s.st := rfl
@[simp] theorem emit_opcode (e : DiagEvent) : (s.emit e).opcode = s.opcode := rfl
@[simp] theorem emit_mem (e : DiagEvent) : (s.emit e).mem = s.mem := rfl
@[simp] theorem emit_fb (e : DiagEvent) : (s.emit e).fb = s.fb := rfl
@[simp] theorem emit_run (e : DiagEvent) : (s.emit e).run = s.run := rfl
@[simp] theorem emit_faultCause (e : DiagEvent) : (s.emit e).faultCause = s.faultCause := rfl
@[simp] theorem emit_faultPc (e : DiagEvent) : (s.emit e).faultPc = s.faultPc := rfl
@[simp] theorem emit_rom (e : DiagEvent) : (s.emit e).rom = s.rom := rfl
@[simp] theorem emit_cfg (e : DiagEvent) : (s.emit e).cfg = s.cfg := rfl
@[simp] theorem emit_keys (e : DiagEvent) : (s.emit e).keys = s.keys := rfl
@[simp] theorem emit_rnd (e : DiagEvent) : (s.emit e).rnd = s.rnd := rfl
@[simp] theorem emit_agenda (e : DiagEvent) : (s.emit e).agenda = s.agenda := rfl
@[simp] theorem emit_calls (e : DiagEvent) : (s.emit e).calls = s.calls := rfl
@[simp] theorem emit_result (e : DiagEvent) : (s.emit e).result = s.result := rfl
@[simp] theorem emit_diag (e : DiagEvent) : (s.emit e).diag = some e := rfl

/-! ### raiseFault -/

@[simp] theorem raiseFault_v (c : FaultCause) : (s.raiseFault c).v = s.v := rfl
@[simp] theorem raiseFault_i (c : FaultCause) : (s.raiseFault c).i = s.i := rfl
@[simp] theorem raiseFault_pc (c : FaultCause) : (s.raiseFault c).pc = s.pc := rfl
@[simp] theorem raiseFault_stack (c : FaultCause) : (s.raiseFault c).stack = s.stack := rfl
@[simp] theorem raiseFault_sp (c : FaultCause) : (s.raiseFault c).sp = s.sp := rfl
@[simp] theorem raiseFault_dt (c : FaultCause) : (s.raiseFault c).dt = s.dt := rfl
@[simp] theorem raiseFault_st (c : FaultCause) : (s.raiseFault c).st = s.st := rfl
@[simp] theorem raiseFault_opcode (c : FaultCause) : (s.raiseFault c).opcode = s.opcode := rfl
@[simp] theorem raiseFault_mem (c : FaultCause) : (s.raiseFault c).mem = s.mem := rfl
@[simp] theorem raiseFault_fb (c : FaultCause) : (s.raiseFault c).fb = s.fb := rfl
@[simp] theorem raiseFault_run (c : FaultCause) : (s.raiseFault c).run = .halted := rfl
@[simp] theorem raiseFault_faultCause (c : FaultCause) : (s.raiseFault c).faultCause = c := rfl
@[simp] theorem raiseFault_faultPc (c : FaultCause) : (s.raiseFault c).faultPc = s.pc := rfl
@[simp] theorem raiseFault_rom (c : FaultCause) : (s.raiseFault c).rom = s.rom := rfl
@[simp] theorem raiseFault_cfg (c : FaultCause) : (s.raiseFault c).cfg = s.cfg := rfl
@[simp] theorem raiseFault_keys (c : FaultCause) : (s.raiseFault c).keys = s.keys := rfl
@[simp] theorem raiseFault_rnd (c : FaultCause) : (s.raiseFault c).rnd = s.rnd := rfl
@[simp] theorem raiseFault_agenda (c : FaultCause) : (s.raiseFault c).agenda = s.agenda := rfl
@[simp] theorem raiseFault_calls (c : FaultCause) : (s.raiseFault c).calls = s.calls := rfl
@[simp] theorem raiseFault_result (c : FaultCause) : (s.raiseFault c).result = .fault c := rfl
@[simp] theorem raiseFault_diag (c : FaultCause) : (s.raiseFault c).diag = s.diag := rfl

/-! ### latch -/

@[simp] theorem latch_v (inp : StepInput) : (s.latch inp).v = s.v := rfl
@[simp] theorem latch_i (inp : StepInput) : (s.latch inp).i = s.i := rfl
@[simp] theorem latch_pc (inp : StepInput) : (s.latch inp).pc = s.pc := rfl
@[simp] theorem latch_stack (inp : StepInput) : (s.latch inp).stack = s.stack := rfl
@[simp] theorem latch_sp (inp : StepInput) : (s.latch inp).sp = s.sp := rfl
@[simp] theorem latch_dt (inp : StepInput) : (s.latch inp).dt = s.dt := rfl
@[simp] theorem latch_st (inp : StepInput) : (s.latch inp).st = s.st := rfl
@[simp] theorem latch_opcode (inp : StepInput) : (s.latch inp).opcode = s.opcode := rfl
@[simp] theorem latch_mem (inp : StepInput) : (s.latch inp).mem = s.mem := rfl
@[simp] theorem latch_fb (inp : StepInput) : (s.latch inp).fb = s.fb := rfl
@[simp] theorem latch_run (inp : StepInput) : (s.latch inp).run = s.run := rfl
@[simp] theorem latch_faultCause (inp : StepInput) : (s.latch inp).faultCause = s.faultCause := rfl
@[simp] theorem latch_faultPc (inp : StepInput) : (s.latch inp).faultPc = s.faultPc := rfl
@[simp] theorem latch_rom (inp : StepInput) : (s.latch inp).rom = s.rom := rfl
@[simp] theorem latch_cfg (inp : StepInput) : (s.latch inp).cfg = s.cfg := rfl
@[simp] theorem latch_keys (inp : StepInput) : (s.latch inp).keys = inp.keys := rfl
@[simp] theorem latch_rnd (inp : StepInput) : (s.latch inp).rnd = inp.rnd := rfl
@[simp] theorem latch_agenda (inp : StepInput) : (s.latch inp).agenda = s.agenda := rfl
@[simp] theorem latch_calls (inp : StepInput) : (s.latch inp).calls = s.calls := rfl
@[simp] theorem latch_result (inp : StepInput) : (s.latch inp).result = s.result := rfl
@[simp] theorem latch_diag (inp : StepInput) : (s.latch inp).diag = s.diag := rfl

/-! ### takeOp -/

@[simp] theorem takeOp_v : (s.takeOp).v = s.v := rfl
@[simp] theorem takeOp_i : (s.takeOp).i = s.i := rfl
@[simp] theorem takeOp_pc : (s.takeOp).pc = s.pc := rfl
@[simp] theorem takeOp_stack : (s.takeOp).stack = s.stack := rfl
@[simp] theorem takeOp_sp : (s.takeOp).sp = s.sp := rfl
@[simp] theorem takeOp_dt : (s.takeOp).dt = s.dt := rfl
@[simp] theorem takeOp_st : (s.takeOp).st = s.st := rfl
@[simp] theorem takeOp_opcode : (s.takeOp).opcode = s.opcode := rfl
@[simp] theorem takeOp_mem : (s.takeOp).mem = s.mem := rfl
@[simp] theorem takeOp_fb : (s.takeOp).fb = s.fb := rfl
@[simp] theorem takeOp_run : (s.takeOp).run = s.run := rfl
@[simp] theorem takeOp_faultCause : (s.takeOp).faultCause = s.faultCause := rfl
@[simp] theorem takeOp_faultPc : (s.takeOp).faultPc = s.faultPc := rfl
@[simp] theorem takeOp_rom : (s.takeOp).rom = s.rom := rfl
@[simp] theorem takeOp_cfg : (s.takeOp).cfg = s.cfg := rfl
@[simp] theorem takeOp_keys : (s.takeOp).keys = s.keys := rfl
@[simp] theorem takeOp_rnd : (s.takeOp).rnd = s.rnd := rfl
@[simp] theorem takeOp_agenda : (s.takeOp).agenda = s.agenda.tail := rfl
@[simp] theorem takeOp_calls : (s.takeOp).calls = s.calls + 1 := rfl
@[simp] theorem takeOp_result : (s.takeOp).result = s.result := rfl
@[simp] theorem takeOp_diag : (s.takeOp).diag = none := rfl

end Sys2Proof.Machine.State
end

