-- ==== Sys2Proof/Laws/Ops.lean ====
section
/-! SUPPORT. What each shared operation does, once: registers, bytes of memory, the program counter, the call stack,
fetching, the framebuffer, the loops of FX33, FX55 and FX65. -/

namespace Sys2Proof.Machine

namespace State

variable (s : State)

/-! ### Registers -/

/-- A register write changes that register and no other (R21). -/
@[simp] theorem reg_setReg (j k : Reg) (b : Byte) : (s.setReg k b).reg j = if j = k then b else s.reg j := by
  simp only [reg, setReg, Vector.getElem_set]
  by_cases h : j = k
  · subst h; simp
  · have hk : ¬ k.val = j.val := fun e => h (Fin.ext e.symm)
    rw [if_neg hk, if_neg h]

@[simp] theorem reg_setI (j : Reg) (w : Word) : (s.setI w).reg j = s.reg j := rfl
@[simp] theorem reg_setPc (j : Reg) (w : Word) : (s.setPc w).reg j = s.reg j := rfl
@[simp] theorem reg_setDt (j : Reg) (b : Byte) : (s.setDt b).reg j = s.reg j := rfl
@[simp] theorem reg_setSt (j : Reg) (b : Byte) : (s.setSt b).reg j = s.reg j := rfl
@[simp] theorem reg_memWrite (j : Reg) (a : Nat) (b : Byte) : (s.memWrite a b).reg j = s.reg j := rfl
@[simp] theorem reg_setFb (j : Reg) (f : Framebuffer) : (s.setFb f).reg j = s.reg j := rfl
@[simp] theorem reg_raiseFault (j : Reg) (c : FaultCause) : (s.raiseFault c).reg j = s.reg j := rfl

/-- Two register files that read alike are equal. -/
theorem v_ext {s t : State} (h : ∀ k : Reg, s.reg k = t.reg k) : s.v = t.v :=
  Vector.ext fun k hk => h ⟨k, hk⟩

/-! ### Bytes of memory -/

/-- A byte write changes that byte and no other (R54). -/
@[simp] theorem memByte_memWrite (a b : Nat) (v : Byte) :
    (s.memWrite a v).memByte b = if b = a then v else s.memByte b := Memory.read_write

@[simp] theorem memByte_setReg (a : Nat) (k : Reg) (b : Byte) : (s.setReg k b).memByte a = s.memByte a := rfl
@[simp] theorem memByte_setI (a : Nat) (w : Word) : (s.setI w).memByte a = s.memByte a := rfl
@[simp] theorem memByte_setPc (a : Nat) (w : Word) : (s.setPc w).memByte a = s.memByte a := rfl
@[simp] theorem memByte_setDt (a : Nat) (b : Byte) : (s.setDt b).memByte a = s.memByte a := rfl
@[simp] theorem memByte_setSt (a : Nat) (b : Byte) : (s.setSt b).memByte a = s.memByte a := rfl
@[simp] theorem memByte_setFb (a : Nat) (f : Framebuffer) : (s.setFb f).memByte a = s.memByte a := rfl
@[simp] theorem memByte_raiseFault (a : Nat) (c : FaultCause) : (s.raiseFault c).memByte a = s.memByte a := rfl

/-! ### The program counter and effective addresses -/

theorem setFlag_eq (f : Byte) : s.setFlag f = s.setReg 15 f := rfl
theorem advance_eq : s.advance = s.setPc (trunc16 (s.pc.toNat + 2)) := rfl
theorem skipIf_eq (c : Bool) :
    s.skipIf c = s.setPc (trunc16 (s.pc.toNat + if c then 4 else 2)) := by cases c <;> rfl

@[simp] theorem pc_advance : s.advance.pc = trunc16 (s.pc.toNat + 2) := rfl
@[simp] theorem reg_advance (j : Reg) : s.advance.reg j = s.reg j := rfl
@[simp] theorem memByte_advance (a : Nat) : s.advance.memByte a = s.memByte a := rfl

/-- R52's check says that the last byte's address is one of memory's. -/
theorem dataInBounds_iff (n : Nat) : s.dataInBounds n = true ↔ n = 0 ∨ s.i.toNat + (n - 1) ≤ 0xFFF :=
  decide_eq_true_iff

/-! ### The call stack -/

/-- Push succeeds below STACK_DEPTH (R27). -/
theorem push_of_lt (w : Word) (h : s.sp.val < 16) :
    s.push w = some { s with stack := s.stack.set s.sp.val w, sp := ⟨s.sp.val + 1, by omega⟩ } := by
  simp [push, h]

/-- Push answers nothing at STACK_DEPTH (R27). -/
theorem push_of_full (w : Word) (h : s.sp.val = 16) : s.push w = none := by simp [push, h]

/-- Everything a Push that answers can do. -/
theorem push_cases {w : Word} {t : State} (h : s.push w = some t) :
    ∃ hlt : s.sp.val < 16,
      t = { s with stack := s.stack.set s.sp.val w, sp := ⟨s.sp.val + 1, by omega⟩ } := by
  unfold push at h
  split at h
  · rename_i hlt; exact ⟨hlt, (Option.some.inj h).symm⟩
  · cases h

/-- Pop succeeds on a stack that is not empty (R28). -/
theorem pop_of_pos (h : 0 < s.sp.val) :
    s.pop = some (s.stack[s.sp.val - 1]'(by omega), { s with sp := ⟨s.sp.val - 1, by omega⟩ }) := by
  simp [pop, h]

/-- Pop answers nothing on an empty stack (R28). -/
theorem pop_of_empty (h : s.sp.val = 0) : s.pop = none := by simp [pop, h]

/-- Everything a Pop that answers can do. -/
theorem pop_cases {w : Word} {t : State} (h : s.pop = some (w, t)) :
    ∃ hpos : 0 < s.sp.val, w = s.stack[s.sp.val - 1]'(by omega) ∧
      t = { s with sp := ⟨s.sp.val - 1, by omega⟩ } := by
  unfold pop at h
  split at h
  · rename_i hpos
    obtain ⟨h1, h2⟩ := Prod.mk.inj (Option.some.inj h)
    exact ⟨hpos, h1.symm, h2.symm⟩
  · cases h

/-! ### Fetching -/

/-- Fetch answers the big-endian word exactly when both its bytes are in memory (R62). -/
theorem fetchWord_eq_some {op : Word} : s.fetchWord = some op ↔
    s.pc.toNat + 1 ≤ 0xFFF ∧ op = wordOfBytes (s.memByte s.pc.toNat) (s.memByte (s.pc.toNat + 1)) := by
  unfold fetchWord Config.lastAddress
  split
  · simp_all [eq_comm]
  · simp_all

theorem fetchWord_eq_none : s.fetchWord = none ↔ 0xFFF < s.pc.toNat + 1 := by
  unfold fetchWord Config.lastAddress
  split
  · simp_all
  · simp_all

end State

/-! ### The framebuffer -/

namespace Framebuffer

/-- Toggling a pixel changes it and no other (R101). -/
theorem pixel_flip (f : Framebuffer) (y y' : Fin 32) (x x' : Fin 64) :
    (f.flip y x).pixel y' x' = if y' = y ∧ x' = x then !f.pixel y' x' else f.pixel y' x' := by
  simp only [pixel, flip, Vector.getElem_set]
  by_cases hy : y.val = y'.val
  · have hy' : y' = y := Fin.ext hy.symm
    subst hy'
    by_cases hx : x.val = x'.val
    · have hx' : x' = x := Fin.ext hx.symm
      subst hx'; simp
    · have hx' : x' ≠ x := fun e => hx (congrArg Fin.val e.symm)
      simp [hx, hx']
  · have hy' : y' ≠ y := fun e => hy (congrArg Fin.val e.symm)
    simp [hy, hy']

@[simp] theorem pixel_clearScreen (y : Fin 32) (x : Fin 64) : clearScreen.pixel y x = false := by
  simp [pixel, clearScreen]

/-- Two framebuffers that show alike are equal. -/
theorem ext_pixel {f g : Framebuffer} (h : ∀ y x, f.pixel y x = g.pixel y x) : f = g :=
  Vector.ext fun y hy => Vector.ext fun x hx => h ⟨y, hy⟩ ⟨x, hx⟩

end Framebuffer

/-! ### The loops of the memory family -/

namespace State

theorem storeRegs_succ (s : State) (n : Nat) :
    s.storeRegs (n + 1) = (s.storeRegs n).memWrite ((s.storeRegs n).dataAddress n) ((s.storeRegs n).reg (regOf n)) := by
  simp [storeRegs, List.range_succ, List.foldl_append]

theorem loadRegs_succ (s : State) (n : Nat) :
    s.loadRegs (n + 1) = (s.loadRegs n).setReg (regOf n) ((s.loadRegs n).memByte ((s.loadRegs n).dataAddress n)) := by
  simp [loadRegs, List.range_succ, List.foldl_append]

/-- The store loop changes nothing but memory. -/
theorem storeRegs_frame (s : State) (n : Nat) : s.storeRegs n = { s with mem := (s.storeRegs n).mem } := by
  induction n with
  | zero => rfl
  | succ n ih => rw [storeRegs_succ]; unfold memWrite; rw [ih]

/-- What the store loop leaves at each address (R164): V0 to V(n-1) from I on, every other byte as it was. -/
theorem memByte_storeRegs (s : State) (n : Nat) (h : n ≤ 16) (a : Nat) :
    (s.storeRegs n).memByte a =
      if s.i.toNat ≤ a ∧ a < s.i.toNat + n then s.reg (regOf (a - s.i.toNat)) else s.memByte a := by
  induction n with
  | zero => rw [if_neg (by omega)]; rfl
  | succ n ih =>
    have hi : (s.storeRegs n).dataAddress n = s.i.toNat + n := by rw [storeRegs_frame]; rfl
    have hr : (s.storeRegs n).reg (regOf n) = s.reg (regOf n) := by rw [storeRegs_frame]; rfl
    rw [storeRegs_succ, memByte_memWrite, hi, hr, ih (by omega)]
    by_cases e : a = s.i.toNat + n
    · subst e
      simp [show s.i.toNat + n < s.i.toNat + (n + 1) by omega]
    · rw [if_neg e]
      by_cases c : s.i.toNat ≤ a ∧ a < s.i.toNat + n
      · rw [if_pos c, if_pos (by omega)]
      · rw [if_neg c, if_neg (by omega)]

/-- The load loop changes nothing but the general registers. -/
theorem loadRegs_frame (s : State) (n : Nat) : s.loadRegs n = { s with v := (s.loadRegs n).v } := by
  induction n with
  | zero => rfl
  | succ n ih => rw [loadRegs_succ]; unfold setReg; rw [ih]

theorem regOf_eq_iff (n : Nat) (h : n < 16) (k : Reg) : k = regOf n ↔ k.val = n := by
  constructor
  · rintro rfl; simp [regOf, Nat.mod_eq_of_lt h]
  · intro e; apply Fin.ext; simp [regOf, Nat.mod_eq_of_lt h, e]

/-- What the load loop leaves in each register (R165): V0 to V(n-1) from memory, the others as they were. -/
theorem reg_loadRegs (s : State) (n : Nat) (h : n ≤ 16) (k : Reg) :
    (s.loadRegs n).reg k = if k.val < n then s.memByte (s.i.toNat + k.val) else s.reg k := by
  induction n with
  | zero => rfl
  | succ n ih =>
    have hm : (s.loadRegs n).memByte ((s.loadRegs n).dataAddress n) = s.memByte (s.i.toNat + n) := by
      rw [loadRegs_frame]; rfl
    rw [loadRegs_succ, reg_setReg, hm, ih (by omega)]
    by_cases e : k = regOf n
    · have ek := (regOf_eq_iff n (by omega) k).1 e
      rw [if_pos e, if_pos (by omega), ek]
    · have ek : k.val ≠ n := fun c => e ((regOf_eq_iff n (by omega) k).2 c)
      rw [if_neg e]
      by_cases c : k.val < n
      · rw [if_pos c, if_pos (by omega)]
      · rw [if_neg c, if_neg (by omega)]

/-- What the three stores of FX33 leave at each address (R163). -/
theorem memByte_storeDigits (s : State) (v : Byte) (a : Nat) :
    (s.storeDigits v).memByte a =
      if a = s.i.toNat then hundreds v else if a = s.i.toNat + 1 then tens v
      else if a = s.i.toNat + 2 then ones v else s.memByte a := by
  simp only [storeDigits, memByte_memWrite, dataAddress, Nat.add_zero]
  split
  · rw [if_neg (by omega), if_neg (by omega)]
  · split
    · rw [if_neg (by omega)]
    · rfl

end State

end Sys2Proof.Machine
end

