-- ==== Sys2Proof/Laws/Display.lean ====
section
/-! SUPPORT. The plot of DXYN as toggles over the list of the sprite's set bits: what it leaves in each pixel, and when
it collides (R101, R102). -/

namespace Sys2Proof.Machine

namespace Plot

/-- Toggle every pixel of a list, in order. -/
def toggleAll (bits : List (Fin 32 × Fin 64)) (p : Plot) : Plot := bits.foldl (fun p c => p.toggle c.1 c.2) p

/-- The pixels the set bits of row r fall on. -/
def rowBits (xs ys b : Byte) (r : Nat) : List (Fin 32 × Fin 64) :=
  ((List.range 8).filter (fun c => b.getLsbD (7 - c))).map (fun c => (rowOf ys r, columnOf xs c))

/-- The pixels the set bits of an n-row sprite fall on. -/
def spriteBits (xs ys : Byte) (sprite : Nat → Byte) (n : Nat) : List (Fin 32 × Fin 64) :=
  (List.range n).flatMap (fun r => rowBits xs ys (sprite r) r)

theorem row_eq_toggleAll (xs ys b : Byte) (r : Nat) (p : Plot) : p.row xs ys b r = p.toggleAll (rowBits xs ys b r) := by
  simp only [row, toggleAll, rowBits, List.foldl_map, List.foldl_filter]

theorem sprite_eq_toggleAll (xs ys : Byte) (sprite : Nat → Byte) (n : Nat) (p : Plot) :
    p.sprite xs ys sprite n = p.toggleAll (spriteBits xs ys sprite n) := by
  simp only [Plot.sprite, row_eq_toggleAll, toggleAll, spriteBits, List.foldl_flatMap]

/-- Toggling distinct pixels inverts exactly those pixels. -/
theorem pixel_toggleAll (bits : List (Fin 32 × Fin 64)) (h : bits.Nodup) (p : Plot) (y : Fin 32) (x : Fin 64) :
    (p.toggleAll bits).fb.pixel y x = if (y, x) ∈ bits then !p.fb.pixel y x else p.fb.pixel y x := by
  induction bits generalizing p with
  | nil => simp [toggleAll]
  | cons c rest ih =>
    obtain ⟨hc, hr⟩ := List.nodup_cons.1 h
    have step : (p.toggleAll (c :: rest)) = (p.toggle c.1 c.2).toggleAll rest := rfl
    rw [step, ih hr]
    have hp : (p.toggle c.1 c.2).fb.pixel y x = if y = c.1 ∧ x = c.2 then !p.fb.pixel y x else p.fb.pixel y x :=
      Framebuffer.pixel_flip ..
    rw [hp]
    by_cases e : (y, x) = c
    · subst e
      simp [hc]
    · have hne : ¬ (y = c.1 ∧ x = c.2) := fun h => e (by rw [h.1, h.2])
      rw [if_neg hne]
      simp only [List.mem_cons, e, false_or]

/-- Toggling distinct pixels collides exactly when one of them was set. -/
theorem collided_toggleAll (bits : List (Fin 32 × Fin 64)) (h : bits.Nodup) (p : Plot) :
    (p.toggleAll bits).collided = true ↔ p.collided = true ∨ ∃ c ∈ bits, p.fb.pixel c.1 c.2 = true := by
  induction bits generalizing p with
  | nil => simp [toggleAll]
  | cons c rest ih =>
    obtain ⟨hc, hr⟩ := List.nodup_cons.1 h
    have step : (p.toggleAll (c :: rest)) = (p.toggle c.1 c.2).toggleAll rest := rfl
    have same : ∀ d ∈ rest, (p.toggle c.1 c.2).fb.pixel d.1 d.2 = p.fb.pixel d.1 d.2 := by
      intro d hd
      have hne : ¬ (d.1 = c.1 ∧ d.2 = c.2) := fun e => hc (by rw [← Prod.ext e.1 e.2]; exact hd)
      exact (Framebuffer.pixel_flip ..).trans (if_neg hne)
    rw [step, ih hr]
    constructor
    · rintro (hcol | ⟨d, hd, hp⟩)
      · rcases (Bool.or_eq_true _ _).mp hcol with hcol | hcol
        · exact .inl hcol
        · exact .inr ⟨c, List.mem_cons_self .., hcol⟩
      · exact .inr ⟨d, List.mem_cons_of_mem _ hd, (same d hd) ▸ hp⟩
    · rintro (hcol | ⟨d, hd, hp⟩)
      · exact .inl ((Bool.or_eq_true _ _).mpr (.inl hcol))
      · rcases List.mem_cons.1 hd with rfl | hd
        · exact .inl ((Bool.or_eq_true _ _).mpr (.inr hp))
        · exact .inr ⟨d, hd, (same d hd).trans hp⟩

theorem mem_rowBits {xs ys b : Byte} {r : Nat} {y : Fin 32} {x : Fin 64} :
    (y, x) ∈ rowBits xs ys b r ↔ ∃ c < 8, b.getLsbD (7 - c) = true ∧ rowOf ys r = y ∧ columnOf xs c = x := by
  simp [rowBits, and_assoc]

/-- A pixel is one of the sprite's when one of its set bits falls on it (R102). -/
theorem mem_spriteBits {xs ys : Byte} {sprite : Nat → Byte} {n : Nat} {y : Fin 32} {x : Fin 64} :
    (y, x) ∈ spriteBits xs ys sprite n ↔
      ∃ r < n, ∃ c < 8, (sprite r).getLsbD (7 - c) = true ∧ rowOf ys r = y ∧ columnOf xs c = x := by
  simp only [spriteBits, List.mem_flatMap, List.mem_range, mem_rowBits]

theorem columnOf_inj {xs : Byte} {c d : Nat} (hc : c < 8) (hd : d < 8) (h : columnOf xs c = columnOf xs d) : c = d := by
  have := congrArg Fin.val h
  simp only [columnOf, Fin.val_ofNat] at this
  omega

theorem rowOf_inj {ys : Byte} {r q : Nat} (hr : r < 32) (hq : q < 32) (h : rowOf ys r = rowOf ys q) : r = q := by
  have := congrArg Fin.val h
  simp only [rowOf, Fin.val_ofNat] at this
  omega

/-- R102: "each of its bits maps to a different pixel". -/
theorem nodup_spriteBits (xs ys : Byte) (sprite : Nat → Byte) (n : Nat) (h : n ≤ 32) :
    (spriteBits xs ys sprite n).Nodup := by
  refine List.nodup_flatMap.2 ⟨fun r _ => ?_, ?_⟩
  · refine List.Nodup.map_on ?_ (List.nodup_range.filter _)
    intro c hc d hd e
    exact columnOf_inj (by simpa using (List.mem_filter.1 hc).1) (by simpa using (List.mem_filter.1 hd).1)
      (Prod.mk.inj e).2
  · refine List.Pairwise.imp_of_mem ?_ (List.nodup_range (n := n))
    intro r q hr hq hne
    rw [Function.onFun, List.disjoint_left]
    rintro ⟨y, x⟩ h1 h2
    obtain ⟨_, _, _, e1, _⟩ := mem_rowBits.1 h1
    obtain ⟨_, _, _, e2, _⟩ := mem_rowBits.1 h2
    simp only [List.mem_range] at hr hq
    exact hne (rowOf_inj (by omega) (by omega) (e1.trans e2.symm))

end Plot

end Sys2Proof.Machine
end

