-- ==== Sys2Proof/Laws/PerInstr.lean ====
section
/-! SUPPORT. Laws made per instruction: each instruction's word matches its own row of the opcode table (R74). -/

namespace Sys2Proof.Laws.EncodesItsRow

/-- The word of `i` matches the table's row of `i`'s mnemonic: `op & mask == match` (R74). -/
def Statement (i : Instr) : Prop :=
  ∃ row ∈ opcodeTable, row.mnemonic = i.mnemonic ∧ row.accepts (encode i) = true

theorem of_row {i : Instr} (row : OpcodeRow) (hm : row ∈ opcodeTable) (hn : row.mnemonic = i.mnemonic)
    (ha : encode i &&& row.mask = row.pattern) : Statement i := ⟨row, hm, hn, beq_iff_eq.2 ha⟩

theorem cls : Statement .cls :=
  of_row ⟨"CLS", 0x00E0, 0xFFFF⟩ (by decide) rfl (rfl)

theorem ret : Statement .ret :=
  of_row ⟨"RET", 0x00EE, 0xFFFF⟩ (by decide) rfl (rfl)

theorem jp (nnn : BitVec 12) : Statement (.jp nnn) :=
  of_row ⟨"JP", 0x1000, 0xF000⟩ (by decide) rfl (encodeNNN_mask ..)

theorem call (nnn : BitVec 12) : Statement (.call nnn) :=
  of_row ⟨"CALL", 0x2000, 0xF000⟩ (by decide) rfl (encodeNNN_mask ..)

theorem seImm (x : Reg) (nn : Byte) : Statement (.seImm x nn) :=
  of_row ⟨"SE_IMM", 0x3000, 0xF000⟩ (by decide) rfl (encodeXNN_mask_high ..)

theorem sneImm (x : Reg) (nn : Byte) : Statement (.sneImm x nn) :=
  of_row ⟨"SNE_IMM", 0x4000, 0xF000⟩ (by decide) rfl (encodeXNN_mask_high ..)

theorem seReg (x : Reg) (y : Reg) : Statement (.seReg x y) :=
  of_row ⟨"SE_REG", 0x5000, 0xF00F⟩ (by decide) rfl (encodeXY_mask ..)

theorem ldImm (x : Reg) (nn : Byte) : Statement (.ldImm x nn) :=
  of_row ⟨"LD_IMM", 0x6000, 0xF000⟩ (by decide) rfl (encodeXNN_mask_high ..)

theorem addImm (x : Reg) (nn : Byte) : Statement (.addImm x nn) :=
  of_row ⟨"ADD_IMM", 0x7000, 0xF000⟩ (by decide) rfl (encodeXNN_mask_high ..)

theorem ldReg (x : Reg) (y : Reg) : Statement (.ldReg x y) :=
  of_row ⟨"LD_REG", 0x8000, 0xF00F⟩ (by decide) rfl (encodeXY_mask ..)

theorem orReg (x : Reg) (y : Reg) : Statement (.orReg x y) :=
  of_row ⟨"OR", 0x8001, 0xF00F⟩ (by decide) rfl (encodeXY_mask ..)

theorem andReg (x : Reg) (y : Reg) : Statement (.andReg x y) :=
  of_row ⟨"AND", 0x8002, 0xF00F⟩ (by decide) rfl (encodeXY_mask ..)

theorem xorReg (x : Reg) (y : Reg) : Statement (.xorReg x y) :=
  of_row ⟨"XOR", 0x8003, 0xF00F⟩ (by decide) rfl (encodeXY_mask ..)

theorem addReg (x : Reg) (y : Reg) : Statement (.addReg x y) :=
  of_row ⟨"ADD_REG", 0x8004, 0xF00F⟩ (by decide) rfl (encodeXY_mask ..)

theorem sub (x : Reg) (y : Reg) : Statement (.sub x y) :=
  of_row ⟨"SUB", 0x8005, 0xF00F⟩ (by decide) rfl (encodeXY_mask ..)

theorem shr (x : Reg) (y : Reg) : Statement (.shr x y) :=
  of_row ⟨"SHR", 0x8006, 0xF00F⟩ (by decide) rfl (encodeXY_mask ..)

theorem subn (x : Reg) (y : Reg) : Statement (.subn x y) :=
  of_row ⟨"SUBN", 0x8007, 0xF00F⟩ (by decide) rfl (encodeXY_mask ..)

theorem shl (x : Reg) (y : Reg) : Statement (.shl x y) :=
  of_row ⟨"SHL", 0x800E, 0xF00F⟩ (by decide) rfl (encodeXY_mask ..)

theorem sneReg (x : Reg) (y : Reg) : Statement (.sneReg x y) :=
  of_row ⟨"SNE_REG", 0x9000, 0xF00F⟩ (by decide) rfl (encodeXY_mask ..)

theorem ldI (nnn : BitVec 12) : Statement (.ldI nnn) :=
  of_row ⟨"LD_I", 0xA000, 0xF000⟩ (by decide) rfl (encodeNNN_mask ..)

theorem jpV0 (nnn : BitVec 12) : Statement (.jpV0 nnn) :=
  of_row ⟨"JP_V0", 0xB000, 0xF000⟩ (by decide) rfl (encodeNNN_mask ..)

theorem rnd (x : Reg) (nn : Byte) : Statement (.rnd x nn) :=
  of_row ⟨"RND", 0xC000, 0xF000⟩ (by decide) rfl (encodeXNN_mask_high ..)

theorem drw (x : Reg) (y : Reg) (n : Nat) : Statement (.drw x y n) :=
  of_row ⟨"DRW", 0xD000, 0xF000⟩ (by decide) rfl (encodeXY_mask_high ..)

theorem skp (x : Reg) : Statement (.skp x) :=
  of_row ⟨"SKP", 0xE09E, 0xF0FF⟩ (by decide) rfl (encodeXNN_mask_low ..)

theorem sknp (x : Reg) : Statement (.sknp x) :=
  of_row ⟨"SKNP", 0xE0A1, 0xF0FF⟩ (by decide) rfl (encodeXNN_mask_low ..)

theorem ldVxDt (x : Reg) : Statement (.ldVxDt x) :=
  of_row ⟨"LD_VX_DT", 0xF007, 0xF0FF⟩ (by decide) rfl (encodeXNN_mask_low ..)

theorem ldVxK (x : Reg) : Statement (.ldVxK x) :=
  of_row ⟨"LD_VX_K", 0xF00A, 0xF0FF⟩ (by decide) rfl (encodeXNN_mask_low ..)

theorem ldDtVx (x : Reg) : Statement (.ldDtVx x) :=
  of_row ⟨"LD_DT_VX", 0xF015, 0xF0FF⟩ (by decide) rfl (encodeXNN_mask_low ..)

theorem ldStVx (x : Reg) : Statement (.ldStVx x) :=
  of_row ⟨"LD_ST_VX", 0xF018, 0xF0FF⟩ (by decide) rfl (encodeXNN_mask_low ..)

theorem addIVx (x : Reg) : Statement (.addIVx x) :=
  of_row ⟨"ADD_I_VX", 0xF01E, 0xF0FF⟩ (by decide) rfl (encodeXNN_mask_low ..)

theorem ldFVx (x : Reg) : Statement (.ldFVx x) :=
  of_row ⟨"LD_F_VX", 0xF029, 0xF0FF⟩ (by decide) rfl (encodeXNN_mask_low ..)

theorem ldBVx (x : Reg) : Statement (.ldBVx x) :=
  of_row ⟨"LD_B_VX", 0xF033, 0xF0FF⟩ (by decide) rfl (encodeXNN_mask_low ..)

theorem ldMemVx (x : Reg) : Statement (.ldMemVx x) :=
  of_row ⟨"LD_MEM_VX", 0xF055, 0xF0FF⟩ (by decide) rfl (encodeXNN_mask_low ..)

theorem ldVxMem (x : Reg) : Statement (.ldVxMem x) :=
  of_row ⟨"LD_VX_MEM", 0xF065, 0xF0FF⟩ (by decide) rfl (encodeXNN_mask_low ..)

end Sys2Proof.Laws.EncodesItsRow
end

