-- ==== Sys2Proof/Laws/Step.lean ====
section
/-! SUPPORT. What a step of the machine can do, case by case: which operation it performs, and the phases of a Step. -/

namespace Sys2Proof.Machine

/-- Every instruction answers a next state; none stops (R203, R210). -/
theorem exec_next (i : Instr) (s : State) : ∃ t, exec i s = .next t := by cases i <;> exact ⟨_, rfl⟩

namespace State

variable (s : State)

@[simp] theorem nextOp_cons (op : HostOp) (rest : List HostOp) (h : s.agenda = op :: rest) : s.nextOp = op := by
  simp [nextOp, h]

@[simp] theorem nextOp_nil (h : s.agenda = []) : s.nextOp = .step s.freeInput := by simp [nextOp, h]

theorem stepOp_uninitialized (h : s.run = .uninitialized) : s.stepOp = .next (s.answer .rejectedNotLoaded) := by
  simp [stepOp, h]

theorem stepOp_halted (h : s.run = .halted) : s.stepOp = .next (s.answer .rejectedHalted) := by simp [stepOp, h]

theorem stepOp_accepted (h : s.run = .loaded ∨ s.run = .running) : s.stepOp = (s.setRun .running).cycle := by
  rcases h with h | h <;> simp [stepOp, h]

theorem cycle_fetchBounds (h : s.fetchWord = none) : s.cycle = .next (s.raiseFault .fetchBounds) := by
  simp [cycle, h]

theorem cycle_unmapped {op : Word} (h : s.fetchWord = some op) (hd : decodeWord op = none) :
    s.cycle = .next ((s.setOpcode op).runUnmapped op) := by
  simp [cycle, h, hd]

theorem cycle_mapped {op : Word} {i : Instr} (h : s.fetchWord = some op) (hd : decodeWord op = some i) :
    s.cycle = exec i ((s.setOpcode op).answer .ok) := by
  simp [cycle, h, hd]

/-- Everything a Step can do: be rejected, fault at fetch, pass an unmapped word, or execute an instruction. -/
theorem stepOp_cases {t : State} (h : s.stepOp = .next t) :
    (s.run = .uninitialized ∧ t = s.answer .rejectedNotLoaded) ∨
    (s.run = .halted ∧ t = s.answer .rejectedHalted) ∨
    ((s.run = .loaded ∨ s.run = .running) ∧
      ((s.fetchWord = none ∧ t = (s.setRun .running).raiseFault .fetchBounds) ∨
       ∃ op, s.fetchWord = some op ∧
        ((decodeWord op = none ∧ t = ((s.setRun .running).setOpcode op).runUnmapped op) ∨
         ∃ i, decodeWord op = some i ∧ exec i (((s.setRun .running).setOpcode op).answer .ok) = .next t))) := by
  cases hr : s.run with
  | uninitialized =>
    rw [stepOp_uninitialized s hr] at h
    exact .inl ⟨rfl, (Host.Outcome.next.inj h).symm⟩
  | halted =>
    rw [stepOp_halted s hr] at h
    exact .inr (.inl ⟨rfl, (Host.Outcome.next.inj h).symm⟩)
  | loaded | running =>
    all_goals
      refine .inr (.inr ⟨by simp, ?_⟩)
      rw [stepOp_accepted s (by simp [hr])] at h
      have hf : (s.setRun .running).fetchWord = s.fetchWord := rfl
      cases hw : s.fetchWord with
      | none =>
        rw [cycle_fetchBounds _ (hf.trans hw)] at h
        exact .inl ⟨rfl, (Host.Outcome.next.inj h).symm⟩
      | some op =>
        refine .inr ⟨op, rfl, ?_⟩
        cases hd : decodeWord op with
        | none =>
          rw [cycle_unmapped _ (hf.trans hw) hd] at h
          exact .inl ⟨rfl, (Host.Outcome.next.inj h).symm⟩
        | some i =>
          rw [cycle_mapped _ (hf.trans hw) hd] at h
          exact .inr ⟨i, rfl, h⟩

end State

end Sys2Proof.Machine
end

