-- ==== Sys2Proof/Tests/Slice0.lean ====
section
/-! SUPPORT. The model's own tests: the well-formedness check, words written out from R74, single steps from the vectors
of 95_test_vectors.md (named in each test), and a witness for the hypotheses of every statement that has some. -/

namespace Sys2Proof.Tests

set_option Elab.async false

open Sys2Proof Sys2Proof.Machine

/-! ### Helpers -/

/-- The next state of an outcome, if it is one. -/
def nextOf : Host.Outcome State Fault Refusal → Option State
  | .next t => some t
  | .fault _ => none
  | .refused _ => none

theorem next_any {o : Host.Outcome State Fault Refusal} {p : State → Bool} (h : (nextOf o).any p = true) :
    ∃ t, o = .next t ∧ p t = true := by
  cases o with
  | next t => exact ⟨t, rfl, by simpa [nextOf] using h⟩
  | fault r => cases r
  | refused r => simp [nextOf] at h

/-- The conventions of 95_test_vectors.md: the word at pc, run = Running, the Step's inputs on the agenda. -/
def machineAt (pc op : Word) (keys : BitVec 16 := 0) (rnd : Byte := 0) : State :=
  { State.reset with pc := pc, run := .running, agenda := [.step ⟨keys, rnd⟩] : State }.placeWord op

/-- `machineAt` at 0x0200. -/
def machine (op : Word) (keys : BitVec 16 := 0) (rnd : Byte := 0) : State := machineAt 0x200 op keys rnd

/-- What `f` reads after one step. -/
def afterStep {α : Type} (s : State) (f : State → α) : Option α := (nextOf (step s)).map f

/-- A Running core whose host calls `op` next. -/
def calling (op : HostOp) : State := { State.reset with run := .running, agenda := [op] }

/-- A ROM of MAX_ROM bytes. -/
def longestRom : List Byte := List.replicate 3584 0xC7

theorem longestRom_length : longestRom.length = 3584 := List.length_replicate

/-- A ROM one byte longer. -/
def tooLongRom : List Byte := List.replicate 3585 0xC7

theorem tooLongRom_length : tooLongRom.length = 3585 := List.length_replicate

/-- The keypad vector with one key held. -/
def key (k : Nat) : BitVec 16 := BitVec.ofNat 16 (2 ^ k)

/-- A framebuffer with one pixel set. -/
def onePixel (y : Fin 32) (x : Fin 64) : Framebuffer := clearScreen.flip y x

/-- The columns of row `y` whose pixel is set. -/
def setColumns (f : Framebuffer) (y : Fin 32) : List Nat := ((List.finRange 64).filter (f.pixel y)).map Fin.val

/-! ### Well-formed instructions (R72) -/

theorem test_wf_drw_refuses_16_rows : (Instr.drw 1 2 16).wellFormed = false := by decide
theorem test_wf_drw_accepts_15_rows : (Instr.drw 1 2 15).wellFormed = true := by decide
/-- The refused term has no word of its own: its row count does not come back. -/
theorem test_wf_drw_16_rows_has_no_word : decodeWord (encode (.drw 1 2 16)) = some (.drw 1 2 0) := by decide

/-! ### Decoding: each word written out from R74's table, nibble by nibble -/

theorem test_decode_display :
    decodeWord 0x00E0 = some .cls ∧ decodeWord 0xD12F = some (.drw 1 2 15) ∧ decodeWord 0xD000 = some (.drw 0 0 0) := by
  decide

theorem test_decode_control :
    decodeWord 0x00EE = some .ret ∧ decodeWord 0x1ABC = some (.jp 0xABC) ∧ decodeWord 0x2ABC = some (.call 0xABC) ∧
    decodeWord 0x3A5C = some (.seImm 0xA 0x5C) ∧ decodeWord 0x4A5C = some (.sneImm 0xA 0x5C) ∧
    decodeWord 0x5120 = some (.seReg 1 2) ∧ decodeWord 0x9120 = some (.sneReg 1 2) ∧
    decodeWord 0xBFFF = some (.jpV0 0xFFF) := by decide

theorem test_decode_alu :
    decodeWord 0x6A5C = some (.ldImm 0xA 0x5C) ∧ decodeWord 0x7101 = some (.addImm 1 0x01) ∧
    decodeWord 0x8120 = some (.ldReg 1 2) ∧ decodeWord 0x8121 = some (.orReg 1 2) ∧
    decodeWord 0x8122 = some (.andReg 1 2) ∧ decodeWord 0x8123 = some (.xorReg 1 2) ∧
    decodeWord 0x8124 = some (.addReg 1 2) ∧ decodeWord 0x8125 = some (.sub 1 2) ∧
    decodeWord 0x8126 = some (.shr 1 2) ∧ decodeWord 0x8127 = some (.subn 1 2) ∧
    decodeWord 0x812E = some (.shl 1 2) ∧ decodeWord 0xC30F = some (.rnd 3 0x0F) := by decide

theorem test_decode_index_memory :
    decodeWord 0xA123 = some (.ldI 0x123) ∧ decodeWord 0xF11E = some (.addIVx 1) ∧
    decodeWord 0xF129 = some (.ldFVx 1) ∧ decodeWord 0xF133 = some (.ldBVx 1) ∧
    decodeWord 0xF255 = some (.ldMemVx 2) ∧ decodeWord 0xF265 = some (.ldVxMem 2) := by decide

theorem test_decode_keypad_timers :
    decodeWord 0xE19E = some (.skp 1) ∧ decodeWord 0xE1A1 = some (.sknp 1) ∧ decodeWord 0xF107 = some (.ldVxDt 1) ∧
    decodeWord 0xF30A = some (.ldVxK 3) ∧ decodeWord 0xF115 = some (.ldDtVx 1) ∧
    decodeWord 0xF118 = some (.ldStVx 1) := by decide

/-- TE3 to TE8. -/
theorem test_decode_unmapped :
    ([0x0123, 0x0000, 0x00E1, 0x01E0, 0x5121, 0x912F, 0x8008, 0x800D, 0x800F, 0xE09F, 0xE000, 0xF000, 0xF0FF, 0xFFFF,
      0xF01F] : List Word).all (fun w => (decodeWord w).isNone) = true := by decide

theorem test_decode_rejects_short_bytes : decode [] = .error .truncated ∧ decode [0xD1] = .error .truncated := by decide

/-- R55: the byte at the lower address is bits 15:8. -/
theorem test_encode_bytes_big_endian :
    encodeBytes (.drw 1 2 5) = [0xD1, 0x25] ∧ encodeBytes (.shl 0xA 0xB) = [0x8A, 0xBE] := by decide

/-- The numbering of spec/opcode_table.json: bit 0 is the word's least significant bit. -/
theorem test_decode_table_word :
    decodeTableWord 16 0x3A5C = some (.seImm 0xA 0x5C) ∧ decodeTableWord 16 0x5121 = none := by decide

/-! ### Display -/

/-- TG1. -/
theorem test_TG1_cls :
    afterStep ((machine 0x00E0).setFb ((onePixel 0 0).flip 31 63)) (fun t => (t.fb, t.pc)) = some (clearScreen, 0x202) := by
  decide +kernel

/-- TG5. -/
theorem test_TG5_drw_collides :
    afterStep ((((machine 0xD121).setI 0x300).memWrite 0x300 0x80).setFb (onePixel 0 0)) (fun t => (t.fb, t.reg 15)) =
      some (clearScreen, 1) := by decide +kernel

/-- TG9. -/
theorem test_TG9_drw_wraps_and_reads_old_VF :
    afterStep ((((machine 0xDFF1).setI 0x300).memWrite 0x300 0xFF).setReg 15 0x3E)
      (fun t => (setColumns t.fb 30, t.reg 15)) = some ([0, 1, 2, 3, 4, 5, 62, 63], 0) := by decide +kernel

/-- TG2, the second row of glyph 0 of the default font. -/
theorem test_TG2_glyph_zero :
    afterStep ((machine 0xD125).setI 0x050) (fun t => setColumns t.fb 1) = some [0, 3] := by decide +kernel

/-! ### Control transfer -/

/-- TC3. -/
theorem test_TC3_ret :
    afterStep { machine 0x00EE with sp := 1, stack := (Vector.replicate 16 0).set 0 0x234 }
      (fun t => (t.sp, t.pc, t.stack[0])) = some (0, 0x234, 0x234) := by decide +kernel

/-- TC4. -/
theorem test_TC4_ret_underflow :
    afterStep (machine 0x00EE) (fun t => (t.run, t.faultCause.code, t.faultPc, t.pc)) = some (.halted, 1, 0x200, 0x200) := by
  decide +kernel

/-- TC1. -/
theorem test_TC1_jp : afterStep (machine 0x1ABC) (fun t => t.pc) = some 0xABC := by decide +kernel

/-- TC17. -/
theorem test_TC17_call_at_top :
    afterStep (machineAt 0xFFE 0x2ABC) (fun t => (t.stack[0], t.sp, t.pc)) = some (0x1000, 1, 0xABC) := by decide +kernel

/-- TC5. -/
theorem test_TC5_call_overflow :
    afterStep { machine 0x2ABC with sp := 16 } (fun t => (t.result, t.faultPc, t.sp)) =
      some (.fault .stackOverflow, 0x200, 16) := by decide +kernel

/-- TC7 and TC18. -/
theorem test_TC7_TC18_se_imm :
    afterStep ((machine 0x3A5C).setReg 0xA 0x5D) (fun t => t.pc) = some 0x202 ∧
    afterStep (machineAt 0xFFE 0x3000) (fun t => t.pc) = some 0x1002 := by decide +kernel

/-- TC8 and TC9. -/
theorem test_TC8_TC9_sne_imm :
    afterStep ((machine 0x4A5C).setReg 0xA 0x5C) (fun t => t.pc) = some 0x202 ∧
    afterStep ((machine 0x4A5C).setReg 0xA 0x5D) (fun t => t.pc) = some 0x204 := by decide +kernel

/-- TC10 and TC11. -/
theorem test_TC10_TC11_se_reg :
    afterStep (((machine 0x5120).setReg 1 7).setReg 2 7) (fun t => t.pc) = some 0x204 ∧
    afterStep (((machine 0x5120).setReg 1 7).setReg 2 8) (fun t => t.pc) = some 0x202 := by decide +kernel

/-- TC13 and TC14. -/
theorem test_TC13_TC14_sne_reg :
    afterStep (((machine 0x9120).setReg 1 7).setReg 2 7) (fun t => t.pc) = some 0x202 ∧
    afterStep (((machine 0x9120).setReg 1 7).setReg 2 8) (fun t => t.pc) = some 0x204 := by decide +kernel

/-- TC16. -/
theorem test_TC16_jp_v0 : afterStep ((machine 0xBFFF).setReg 0 0xFF) (fun t => t.pc) = some 0x10FE := by decide +kernel

/-- TC20. -/
theorem test_TC20_fetch_bounds :
    afterStep { machine 0x1200 with pc := 0xFFF } (fun t => (t.result, t.faultPc, t.run)) =
      some (.fault .fetchBounds, 0xFFF, .halted) := by decide +kernel

/-- TC21. -/
theorem test_TC21_odd_pc : afterStep (machineAt 0x201 0x1200) (fun t => (t.pc, t.result)) = some (0x200, .ok) := by
  decide +kernel

/-- TC19: the end of a run (R252). -/
theorem test_TC19_self_jump_ends :
    (machineAt 0xFFE 0x1FFE).atEnd = true ∧ (machineAt 0xFFE 0x1FFC).atEnd = false ∧
    afterStep (machineAt 0xFFE 0x1FFE) (fun t => t.pc) = some 0xFFE := by decide +kernel

/-! ### Arithmetic and logic -/

/-- TA1. -/
theorem test_TA1_ld_imm : afterStep (machine 0x6A5C) (fun t => (t.reg 0xA, t.pc)) = some (0x5C, 0x202) := by decide +kernel

/-- TA2. -/
theorem test_TA2_add_imm_wraps :
    afterStep (((machine 0x7101).setReg 1 0xFF).setReg 15 0x55) (fun t => (t.reg 1, t.reg 15)) = some (0, 0x55) := by
  decide +kernel

/-- TA4. -/
theorem test_TA4_ld_reg :
    afterStep ((machine 0x8120).setReg 2 0xAB) (fun t => (t.reg 1, t.reg 2)) = some (0xAB, 0xAB) := by decide +kernel

/-- TA5. -/
theorem test_TA5_or :
    afterStep ((((machine 0x8121).setReg 1 0xF0).setReg 2 0x0F).setReg 15 0x77) (fun t => (t.reg 1, t.reg 15)) =
      some (0xFF, 0x77) := by decide +kernel

/-- TA6. -/
theorem test_TA6_and :
    afterStep (((machine 0x8122).setReg 1 0xF0).setReg 2 0x3C) (fun t => t.reg 1) = some 0x30 := by decide +kernel

/-- TA7. -/
theorem test_TA7_xor :
    afterStep (((machine 0x8123).setReg 1 0xFF).setReg 2 0x0F) (fun t => t.reg 1) = some 0xF0 := by decide +kernel

/-- TA10 and TA11. -/
theorem test_TA10_TA11_add_with_VF :
    afterStep (((machine 0x8F14).setReg 1 0x80).setReg 15 0x80) (fun t => t.reg 15) = some 1 ∧
    afterStep (((machine 0x81F4).setReg 1 0x80).setReg 15 0x80) (fun t => (t.reg 1, t.reg 15)) = some (0, 1) := by
  decide +kernel

/-- TA12 and TA14. -/
theorem test_TA12_TA14_sub :
    afterStep (((machine 0x8125).setReg 1 0x05).setReg 2 0x0A) (fun t => (t.reg 1, t.reg 15)) = some (0xFB, 0) ∧
    afterStep (((machine 0x8125).setReg 1 7).setReg 2 7) (fun t => (t.reg 1, t.reg 15)) = some (0, 0) := by decide +kernel

/-- TA15 and TA16. -/
theorem test_TA15_TA16_sub_with_VF :
    afterStep (((machine 0x8F15).setReg 1 3).setReg 15 9) (fun t => t.reg 15) = some 0xFE ∧
    afterStep (((machine 0x81F5).setReg 1 9).setReg 15 3) (fun t => (t.reg 1, t.reg 15)) = some (8, 1) := by decide +kernel

/-- TA17 and TA19. -/
theorem test_TA17_TA19_shr :
    afterStep ((machine 0x8126).setReg 2 5) (fun t => (t.reg 1, t.reg 15)) = some (2, 1) ∧
    afterStep ((machine 0x8F16).setReg 15 7) (fun t => t.reg 15) = some 0 := by decide +kernel

/-- TA32 and TA34: SHIFT_USES_VY = false. -/
theorem test_TA32_TA34_shr_in_place :
    afterStep (((({ machine 0x8126 with cfg := ⟨false, defaultFont⟩ } : State)).setReg 1 5).setReg 2 0xFF)
      (fun t => (t.reg 1, t.reg 15)) = some (2, 1) ∧
    afterStep (({ machine 0x8F06 with cfg := ⟨false, defaultFont⟩ } : State).setReg 15 3) (fun t => t.reg 15) = some 0 := by
  decide +kernel

/-- TA22 and TA23. -/
theorem test_TA22_TA23_subn :
    afterStep (((machine 0x8127).setReg 1 0x0A).setReg 2 5) (fun t => (t.reg 1, t.reg 15)) = some (0xFB, 0) ∧
    afterStep (((machine 0x8F17).setReg 1 9).setReg 15 3) (fun t => t.reg 15) = some 8 := by decide +kernel

/-- TA25 and TA27. -/
theorem test_TA25_TA27_shl :
    afterStep ((machine 0x812E).setReg 2 0x81) (fun t => (t.reg 1, t.reg 15)) = some (2, 1) ∧
    afterStep ((machine 0x8FFE).setReg 15 0x80) (fun t => t.reg 15) = some 2 := by decide +kernel

/-- TA29. -/
theorem test_TA29_rnd : afterStep (machine 0xC30F 0 0xA7) (fun t => t.reg 3) = some 7 := by decide +kernel

/-! ### Index register and memory -/

/-- TM1. -/
theorem test_TM1_ld_i : afterStep (machine 0xA123) (fun t => t.i) = some 0x123 := by decide +kernel

/-- TM2 and TM3. -/
theorem test_TM2_TM3_add_i :
    afterStep (((machine 0xF11E).setI 0xFFF).setReg 1 1) (fun t => (t.i, t.reg 15)) = some (0x1000, 0) ∧
    afterStep (((machine 0xF11E).setI 0xFFFF).setReg 1 2) (fun t => t.i) = some 1 := by decide +kernel

/-- TM4 and TM6. -/
theorem test_TM4_TM6_glyph :
    afterStep ((machine 0xF129).setReg 1 0x0A) (fun t => t.i) = some 0x082 ∧
    afterStep ((machine 0xF129).setReg 1 0xFF) (fun t => t.i) = some 0x54B := by decide +kernel

/-- TM7. -/
theorem test_TM7_bcd :
    afterStep (((machine 0xF133).setI 0x300).setReg 1 0xFE) (fun t => (t.memByte 0x300, t.memByte 0x301, t.memByte 0x302)) =
      some (2, 5, 4) := by decide +kernel

/-- TM10. -/
theorem test_TM10_bcd_bounds :
    afterStep (((machine 0xF133).setI 0xFFE).setReg 1 100) (fun t => (t.result, t.memByte 0xFFE)) =
      some (.fault .dataBounds, 0) := by decide +kernel

/-- TM11. -/
theorem test_TM11_store :
    afterStep (((((machine 0xF255).setI 0x300).setReg 0 1).setReg 1 2).setReg 2 3)
      (fun t => ((t.memByte 0x300, t.memByte 0x301, t.memByte 0x302), t.i)) = some ((1, 2, 3), 0x300) := by decide +kernel

/-- TM17. -/
theorem test_TM17_store_into_font :
    afterStep (((machine 0xF055).setI 0x50).setReg 0 0xAA) (fun t => (t.memByte 0x50, t.memByte 0x51)) =
      some (0xAA, 0x90) := by decide +kernel

/-- TM15. -/
theorem test_TM15_load :
    afterStep (((((machine 0xF265).setI 0x300).memWrite 0x300 0xA).memWrite 0x301 0xB).memWrite 0x302 0xC)
      (fun t => ((t.reg 0, t.reg 1, t.reg 2, t.reg 3), t.i)) = some ((0xA, 0xB, 0xC, 0), 0x300) := by decide +kernel

/-- TM16. -/
theorem test_TM16_load_bounds :
    afterStep (((machine 0xFF65).setI 0xFF1).setReg 0 9) (fun t => (t.result, t.reg 0)) = some (.fault .dataBounds, 9) := by
  decide +kernel

/-! ### Keypad and timers -/

/-- TK1 and TK3. -/
theorem test_TK1_TK3_skp :
    afterStep ((machine 0xE19E (key 7)).setReg 1 7) (fun t => t.pc) = some 0x204 ∧
    afterStep ((machine 0xE19E (key 7)).setReg 1 0x17) (fun t => t.pc) = some 0x202 := by decide +kernel

/-- TK4 and TK6. -/
theorem test_TK4_TK6_sknp :
    afterStep ((machine 0xE1A1 (key 7)).setReg 1 7) (fun t => t.pc) = some 0x202 ∧
    afterStep ((machine 0xE1A1 (key 7)).setReg 1 0x17) (fun t => t.pc) = some 0x204 := by decide +kernel

/-- TK10. -/
theorem test_TK10_ld_vx_dt : afterStep ((machine 0xF107).setDt 0x3C) (fun t => t.reg 1) = some 0x3C := by decide +kernel

/-- TK7. -/
theorem test_TK7_key_wait : afterStep (machine 0xF30A) (fun t => (t.pc, t.v)) = some (0x200, Vector.replicate 16 0) := by
  decide +kernel

/-- TK8: keys 2, 9 and E held. -/
theorem test_TK8_key_read : afterStep (machine 0xF30A 0x4204) (fun t => (t.reg 3, t.pc)) = some (2, 0x202) := by
  decide +kernel

/-- TK11. -/
theorem test_TK11_ld_dt_vx : afterStep ((machine 0xF115).setReg 1 0x3C) (fun t => t.dt) = some 0x3C := by decide +kernel

/-- TK12. -/
theorem test_TK12_ld_st_vx :
    afterStep ((machine 0xF118).setReg 1 2) (fun t => (t.st, t.soundGate)) = some (2, true) := by decide +kernel

/-! ### Unmapped words and host operations -/

/-- TU3. -/
theorem test_TU3_unmapped :
    afterStep (machine 0x5121) (fun t => (t.result, t.diag, t.pc, t.run)) =
      some (.unmapped, some (.unmapped 0x200 0x5121), 0x202, .running) := by decide +kernel

/-- TH1 and TH8. -/
theorem test_TH1_TH8_rejected :
    afterStep { machine 0x1ABC with run := .uninitialized } (fun t => (t.result, t.pc)) = some (.rejectedNotLoaded, 0x200) ∧
    afterStep { machine 0x1ABC with run := .halted } (fun t => (t.result, t.pc)) = some (.rejectedHalted, 0x200) := by
  decide +kernel

/-- TH4, with a ROM of three bytes. -/
theorem test_TH4_load :
    afterStep { calling (.load [0xC7, 0, 0xC8]) with run := .halted, faultCause := .dataBounds }
      (fun t => ((t.run, t.result, t.faultCause), [0x1FF, 0x200, 0x202, 0x203, 0xFFF, 0x50, 0x9F].map t.memByte)) =
      some ((.loaded, .ok, .none), [0, 0xC7, 0xC8, 0, 0, 0xF0, 0x80]) := by decide +kernel

/-- TH3: a ROM of 3585 bytes. -/
theorem test_TH3_load_too_large :
    afterStep (calling (.load tooLongRom)) (fun t => (t.run, t.result, t.memByte 0x200, t.rom)) =
      some (.running, .loadTooLarge, 0, []) := by decide +kernel

/-- TH6 and TH11. -/
theorem test_TH6_TH11_tick :
    afterStep { calling .tickTimers with dt := 5, st := 1 } (fun t => (t.dt, t.st, t.soundGate)) = some (4, 0, false) ∧
    afterStep (calling .tickTimers) (fun t => (t.dt, t.st, t.result)) = some (0, 0, .ok) := by decide +kernel

/-- TH9. -/
theorem test_TH9_restart_leaves_halted :
    afterStep { calling .restart with run := .halted, faultCause := .dataBounds, faultPc := 0x222, rom := [0x12, 0x00], pc := 0x222 }
      (fun t => ((t.run, t.faultCause, t.faultPc, t.pc), t.memByte 0x200, t.rom)) =
      some ((.loaded, .none, 0, 0x200), 0x12, [0x12, 0x00]) := by decide +kernel

/-- The next step from reset with a word placed fetches and runs exactly it. -/
theorem test_withFetchWord_runs_first :
    ((nextOf (step (State.reset.withFetchWord 16 0x6A5C))).map fun t => (t.reg 0xA, t.opcode, t.pc)) =
      some (0x5C, 0x6A5C, 0x202) := by decide +kernel

/-! ### Witnesses: a state and operands that meet the hypotheses of each statement that has some, clause by clause -/

theorem witness_DecodeInvertsEncode : (Instr.drw 0xF 0xF 15).wellFormed = true ∧ (Instr.drw 0 0 0).wellFormed = true := by
  decide

theorem witness_EncodeInvertsDecode : decodeWord 0xDFFF = some (.drw 0xF 0xF 15) ∧ decodeWord 0x00E0 = some .cls := by decide

theorem witness_DecoderFollowsOpcodeTable :
    decodeWord 0x812E = some (.shl 1 2) ∧ decodeWord 0x812F = none ∧
    (⟨"SHL", 0x800E, 0xF00F⟩ : OpcodeRow) ∈ opcodeTable ∧ (0x812E : Word) &&& 0xF00F = 0x800E := by decide

theorem witness_OperandsAreTheWordsFields :
    decodeWord 0x1FFF = some (.jp 0xFFF) ∧ decodeWord 0x3FFF = some (.seImm 0xF 0xFF) ∧
    decodeWord 0x8FF0 = some (.ldReg 0xF 0xF) ∧ decodeWord 0xDFFF = some (.drw 0xF 0xF 15) ∧
    decodeWord 0xFF65 = some (.ldVxMem 0xF) := by decide

/-- The words at the edges of R76's families. -/
theorem witness_UnmappedWordsAreTheFamilies :
    ([0x0FFF, 0x5FF1, 0x8FF8, 0x8FFF, 0x9001, 0xEF9D, 0xEFA2, 0xFF06, 0xFF66] : List Word).all
      (fun w => (decodeWord w).isNone) = true ∧
    ([0x1000, 0x5FF0, 0x8FF7, 0x8FFE, 0x9000, 0xEF9E, 0xEFA1, 0xFF07, 0xFF65] : List Word).all
      (fun w => (decodeWord w).isSome) = true := by decide

theorem witness_StepRunsDecodedInstruction :
    (machineAt 0xFFE 0xD125).nextOp = .step ⟨0, 0⟩ ∧ (machineAt 0xFFE 0xD125).accepts ∧
    (machineAt 0xFFE 0xD125).pc.toNat ≤ 0xFFE ∧
    decode [(machineAt 0xFFE 0xD125).memByte 0xFFE, (machineAt 0xFFE 0xD125).memByte 0xFFF] = .ok (.drw 1 2 5, []) :=
  ⟨rfl, .inr rfl, by decide, by decide +kernel⟩

/-- The agenda of `State.reset` is empty, so its next step is a Step with free inputs. -/
theorem witness_StepRunsDecodedInstruction_reset :
    (State.reset.withFetchWord 16 0x6A5C).nextOp = .step (State.reset.freeInput) ∧
    (State.reset.withFetchWord 16 0x6A5C).accepts ∧
    decode [(State.reset.withFetchWord 16 0x6A5C).memByte 0x200, (State.reset.withFetchWord 16 0x6A5C).memByte 0x201] =
      .ok (.ldImm 0xA 0x5C, []) := ⟨rfl, .inl rfl, by decide +kernel⟩

theorem witness_UnmappedWordIsNoOp :
    (machineAt 0xFFE 0x8008).nextOp = .step ⟨0, 0⟩ ∧ (machineAt 0xFFE 0x8008).accepts ∧
    wordOfBytes ((machineAt 0xFFE 0x8008).memByte 0xFFE) ((machineAt 0xFFE 0x8008).memByte 0xFFF) = 0x8008 ∧
    decodeWord 0x8008 = none := ⟨rfl, .inr rfl, by decide +kernel, by decide⟩

/-- Both clauses, where they meet. -/
theorem witness_FetchChecksBounds :
    (({ machine 0 with pc := 0xFFF } : State).nextOp = .step ⟨0, 0⟩ ∧ ({ machine 0 with pc := 0xFFF } : State).accepts ∧
      ({ machine 0 with pc := 0xFFF } : State).pc.toNat + 1 > 0xFFF) ∧
    ((machineAt 0xFFE 0).nextOp = .step ⟨0, 0⟩ ∧ (machineAt 0xFFE 0).accepts ∧ (machineAt 0xFFE 0).pc.toNat + 1 ≤ 0xFFF) :=
  ⟨⟨rfl, .inr rfl, by decide⟩, ⟨rfl, .inr rfl, by decide⟩⟩

theorem witness_StepAcceptance (r : RunState) :
    ({ machine 0 with run := r } : State).nextOp = .step ⟨0, 0⟩ ∧ ({ machine 0 with run := r } : State).run = r := ⟨rfl, rfl⟩

/-- Every cell of R213's table. -/
theorem witness_RunStateTransitions (op : HostOp) (r : RunState) :
    ({ calling op with run := r } : State).nextOp = op ∧ ({ calling op with run := r } : State).run = r ∧
    (op = .tickTimers ∨ op = .restart ∨ op = .load [0x12, 0x00] ∨ op = .load tooLongRom →
      ∃ t, step { calling op with run := r } = .next t) := by
  refine ⟨rfl, rfl, ?_⟩
  rintro (rfl | rfl | rfl | rfl) <;> exact ⟨_, rfl⟩

/-- The Step column: OK, UNMAPPED, FAULT and the two rejections. -/
theorem witness_RunStateTransitions_step :
    (∃ t, step (machine 0x1ABC) = .next t ∧ (t.result == .ok) = true) ∧
    (∃ t, step (machine 0x0000) = .next t ∧ (t.result == .unmapped) = true) ∧
    (∃ t, step (machine 0x00EE) = .next t ∧ (t.result == .fault .stackUnderflow) = true) ∧
    (∃ t, step { machine 0 with run := .uninitialized } = .next t ∧ (t.result == .rejectedNotLoaded) = true) ∧
    (∃ t, step { machine 0 with run := .halted } = .next t ∧ (t.result == .rejectedHalted) = true) := by
  refine ⟨next_any ?_, next_any ?_, next_any ?_, next_any ?_, next_any ?_⟩ <;> decide +kernel

theorem witness_HaltedIsAbsorbing :
    ([.step ⟨0, 0⟩, .tickTimers, .load [], .load tooLongRom, .restart] : List HostOp).all (fun op =>
      ({ calling op with run := .halted } : State).run == .halted &&
      (nextOf (step { calling op with run := .halted })).isSome) = true ∧
    longestRom.length ≤ 3584 ∧ ¬ tooLongRom.length ≤ 3584 :=
  ⟨by decide +kernel, longestRom_length.le, by rw [tooLongRom_length]; omega⟩

/-- The five faulting forms of R201, each at the edge of its condition. -/
theorem witness_FaultsArePrecise :
    (∃ t, step { machine 0 with pc := 0xFFF } = .next t ∧ (t.result == .fault .fetchBounds) = true) ∧
    (∃ t, step { machine 0x00EE with sp := 0 } = .next t ∧ (t.result == .fault .stackUnderflow) = true) ∧
    (∃ t, step { machine 0x2ABC with sp := 16 } = .next t ∧ (t.result == .fault .stackOverflow) = true) ∧
    (∃ t, step { machine 0xD12F with i := 0xFF2 } = .next t ∧ (t.result == .fault .dataBounds) = true) ∧
    (∃ t, step { machine 0xF133 with i := 0xFFE } = .next t ∧ (t.result == .fault .dataBounds) = true) ∧
    (∃ t, step { machine 0xFF55 with i := 0xFF1 } = .next t ∧ (t.result == .fault .dataBounds) = true) ∧
    (∃ t, step { machine 0xF165 with i := 0xFFF } = .next t ∧ (t.result == .fault .dataBounds) = true) := by
  refine ⟨next_any ?_, next_any ?_, next_any ?_, next_any ?_, next_any ?_, next_any ?_, next_any ?_⟩ <;> decide +kernel

/-- Just inside each condition of R201 nothing faults. -/
theorem witness_FaultConditionsAreExact :
    (∃ t, step (machineAt 0xFFE 0x1ABC) = .next t ∧ (t.result == .ok) = true) ∧
    (∃ t, step { machine 0x00EE with sp := 1 } = .next t ∧ (t.result == .ok) = true) ∧
    (∃ t, step { machine 0x2ABC with sp := 15 } = .next t ∧ (t.result == .ok) = true) ∧
    (∃ t, step { machine 0xD12F with i := 0xFF1 } = .next t ∧ (t.result == .ok) = true) ∧
    (∃ t, step { machine 0xD120 with i := 0xFFFF } = .next t ∧ (t.result == .ok) = true) ∧
    (∃ t, step { machine 0xF133 with i := 0xFFD } = .next t ∧ (t.result == .ok) = true) ∧
    (∃ t, step { machine 0xFF55 with i := 0xFF0 } = .next t ∧ (t.result == .ok) = true) ∧
    (∃ t, step { machine 0xF165 with i := 0xFFE } = .next t ∧ (t.result == .ok) = true) := by
  refine ⟨next_any ?_, next_any ?_, next_any ?_, next_any ?_, next_any ?_, next_any ?_, next_any ?_, next_any ?_⟩ <;>
    decide +kernel

theorem witness_LoadResetsOrChangesNothing :
    (calling (.load longestRom)).nextOp = .load longestRom ∧
    longestRom.length ≤ 3584 ∧
    (calling (.load tooLongRom)).nextOp = .load tooLongRom ∧
    tooLongRom.length > 3584 :=
  ⟨rfl, longestRom_length.le, rfl, by rw [tooLongRom_length]; omega⟩

/-- With the longest ROM no program byte is left over; the zero clause is met at 0x04F, 0x0A0 and 0x1FF. -/
theorem witness_LoadedMemoryContents :
    (calling (.load longestRom)).nextOp = .load longestRom ∧
    longestRom.length ≤ 3584 ∧
    (∃ t, step (calling (.load longestRom)) = .next t) ∧
    (∃ t, step (calling (.load [0xC7])) = .next t) ∧
    (∀ a ∈ [0x04F, 0x0A0, 0x1FF], a ≤ 0xFFF ∧ ¬ (0x050 ≤ a ∧ a ≤ 0x09F) ∧ ¬ (0x200 ≤ a ∧ a < 0x200 + 3584)) ∧
    ¬ (0x200 ≤ 0x201 ∧ 0x201 < 0x200 + [(0xC7 : Byte)].length) :=
  ⟨rfl, longestRom_length.le, ⟨_, rfl⟩, ⟨_, rfl⟩, by decide, by decide⟩

theorem witness_RestartReloads :
    (calling .restart).nextOp = .restart ∧ (calling .restart).run ≠ .uninitialized ∧
    ({ calling .restart with run := .uninitialized } : State).nextOp = .restart := ⟨rfl, by decide, rfl⟩

/-- Load, then a Step that changes V1, then Restart. -/
def loadStepRestart : State :=
  { calling .restart with agenda := [.load [0x61, 0x05], .step ⟨0, 0⟩, .restart] }

theorem witness_RestartEqualsLoad :
    ∃ s1 t u, loadStepRestart.nextOp = .load [0x61, 0x05] ∧ step loadStepRestart = .next s1 ∧
      (∀ op ∈ s1.agenda, ∀ b, op ≠ .load b) ∧ Reaches s1 t ∧ t.nextOp = .restart ∧ step t = .next u ∧
      t.reg 1 = 5 ∧ s1.reg 1 = 0 := by
  have e : (match nextOf (step loadStepRestart) with
      | some s1 => match nextOf (step s1) with
        | some t => t.agenda == [.restart] && t.reg 1 == 5 && s1.reg 1 == 0 && s1.agenda == [.step ⟨0, 0⟩, .restart] &&
            (nextOf (step t)).isSome
        | none => false
      | none => false) = true := by decide +kernel
  have of : ∀ {o : Host.Outcome State Fault Refusal} {t : State}, nextOf o = some t → o = .next t := by
    intro o t h; cases o <;> simp_all [nextOf]
  split at e
  · rename_i s1 h1
    split at e
    · rename_i t h2
      simp only [Bool.and_eq_true, beq_iff_eq, Option.isSome_iff_exists] at e
      obtain ⟨⟨⟨⟨ha, h5⟩, h0⟩, hs⟩, u, h3⟩ := e
      refine ⟨s1, t, u, rfl, of h1, ?_, .next .start (of h2), ?_, of h3, h5, h0⟩
      · rw [hs]; rintro op h b rfl; simp at h
      · simp [State.nextOp, ha]
    · cases e
  · cases e

theorem witness_TickTimersCountsDown (r : RunState) :
    ({ calling .tickTimers with run := r, dt := 0, st := 0xFF } : State).nextOp = .tickTimers ∧
    ({ calling .tickTimers with run := r, dt := 0, st := 0xFF } : State).run = r := ⟨rfl, rfl⟩

theorem witness_ResetIsTheLoadOfAnEmptyROM :
    (calling (.load [])).nextOp = .load [] ∧ (calling (.load [])).cfg = defaultConfig ∧
    ∃ t, step (calling (.load [])) = .next t := ⟨rfl, rfl, _, rfl⟩

theorem witness_PowerOnMeetsTheInvariant :
    ({ State.reset with run := .uninitialized, mem := [(0xFFF, 7)], pc := 0xFFFF, sp := 9, dt := 3 } : State).isPowerOn = true ∧
    Memory.wf defaultFont [(0xFFF, 7)] = true := by decide +kernel

/-- A Running core at the highest pc that is reached. -/
def highest : State := { machine 0x00E0 with pc := 0x10FE, rom := [0x00, 0xE0] }

theorem witness_StepKeepsTheInvariant : highest.Inv ∧ ∃ t, step highest = .next t := by
  refine ⟨⟨by decide +kernel, by decide, ?_, ?_, ?_, ?_, ?_, ?_⟩, ⟨_, rfl⟩⟩
  · intro h; cases h
  · exact ⟨fun h => (by cases h), fun h => absurd rfl h⟩
  · intro _; rfl
  · intro h; cases h
  · intro _; decide
  · intro _; decide

/-- And a Halted one, whose record is set. -/
theorem witness_StepKeepsTheInvariant_halted :
    ({ calling .restart with run := .halted, faultCause := .dataBounds, faultPc := 0x200 } : State).Inv := by
  refine ⟨by decide +kernel, by decide, ?_, ?_, ?_, ?_, ?_, ?_⟩
  · intro h; cases h
  · exact ⟨fun _ => by simp, fun _ => rfl⟩
  · intro h; exact absurd rfl h
  · intro _; rfl
  · intro _; decide
  · intro _; decide

theorem witness_ConfigurationIsFixed : ∃ t, step (machine 0x1ABC) = .next t ∧ (t.pc == 0xABC) = true :=
  next_any (by decide +kernel)

theorem witness_RegistersChangeOnlyByTheirWriters :
    (∃ t, exec (.ldVxMem 0xE) (machine 0) = .next t) ∧ mayWriteReg (.ldVxMem 0xE) 0xF = false ∧
    mayWriteReg (.drw 1 2 15) 0xE = false ∧ mayWriteReg (.addReg 0 1) 1 = false := ⟨⟨_, rfl⟩, by decide⟩

/-- Each clause's premise holds somewhere. -/
theorem witness_StateChangesOnlyByItsWriters :
    storesMemory (.ldVxMem 0xF) = false ∧ mayFault (.jp 0) = false ∧
    (∃ t, exec (.ldI 0xFFF) (machine 0) = .next t ∧ (t.i != (machine 0).i) = true) ∧
    (∃ t, exec (.ldDtVx 1) ((machine 0).setReg 1 9) = .next t ∧ (t.dt != (machine 0).dt) = true) ∧
    (∃ t, exec (.ldStVx 1) ((machine 0).setReg 1 9) = .next t ∧ (t.st != (machine 0).st) = true) ∧
    (∃ t, exec (.drw 1 2 1) ((machine 0).setI 0x50) = .next t ∧ (t.fb.pixel 0 0 && !(machine 0).fb.pixel 0 0) = true) ∧
    (∃ t, exec (.call 0) (machine 0) = .next t ∧ (t.sp != (machine 0).sp) = true) := by
  refine ⟨rfl, rfl, next_any ?_, next_any ?_, next_any ?_, next_any ?_, next_any ?_⟩ <;> decide +kernel

/-- pc = 0xFFE, the highest one fetched from, with each branch of the table taken. -/
theorem witness_PcAfterEveryInstruction :
    (machineAt 0xFFE 0).pc.toNat ≤ 0xFFE ∧
    (∃ t, exec (.jpV0 0xFFF) ((machineAt 0xFFE 0).setReg 0 0xFF) = .next t ∧ (t.pc == 0x10FE) = true) ∧
    (∃ t, exec (.call 0xFFF) { machineAt 0xFFE 0 with sp := 15 } = .next t ∧ (t.pc == 0xFFF) = true) ∧
    (∃ t, exec (.call 0xFFF) { machineAt 0xFFE 0 with sp := 16 } = .next t ∧ (t.pc == 0xFFE) = true) ∧
    (∃ t, exec .ret { machineAt 0xFFE 0 with sp := 1 } = .next t ∧ (t.pc == 0) = true) ∧
    (∃ t, exec .ret (machineAt 0xFFE 0) = .next t ∧ (t.pc == 0xFFE) = true) ∧
    (∃ t, exec (.ldVxK 0) (machineAt 0xFFE 0) = .next t ∧ (t.pc == 0xFFE) = true) ∧
    (∃ t, exec (.ldVxK 0) { machineAt 0xFFE 0 with keys := 1 } = .next t ∧ (t.pc == 0x1000) = true) ∧
    (∃ t, exec (.drw 0 0 1) { machineAt 0xFFE 0 with i := 0x1000 } = .next t ∧ (t.pc == 0xFFE) = true) ∧
    (∃ t, exec (.ldBVx 0) { machineAt 0xFFE 0 with i := 0xFFE } = .next t ∧ (t.pc == 0xFFE) = true) ∧
    (∃ t, exec (.ldMemVx 0) { machineAt 0xFFE 0 with i := 0xFFF } = .next t ∧ (t.pc == 0x1000) = true) := by
  refine ⟨by decide, next_any ?_, next_any ?_, next_any ?_, next_any ?_, next_any ?_, next_any ?_, next_any ?_, next_any ?_,
    next_any ?_, next_any ?_⟩ <;> decide +kernel

theorem witness_InputsReachOnlyTheirReaders :
    (∃ t, exec (.rnd 1 0xFF) (machine 0) = .next t) ∧ readsKeys (.rnd 1 0xFF) = false ∧
    (∃ t, exec (.ldVxK 1) (machine 0) = .next t) ∧ ∀ x nn, Instr.ldVxK 1 ≠ .rnd x nn :=
  ⟨⟨_, rfl⟩, rfl, ⟨_, rfl⟩, fun _ _ h => by cases h⟩

theorem witness_CanonicalMemoriesThatReadAlikeAreEqual :
    Memory.wf defaultFont [(0x050, 0xAA), (0xFFF, 7)] = true ∧
    Memory.write defaultFont 0x050 0xAA (Memory.write defaultFont 0xFFF 7 []) = [(0x050, 0xAA), (0xFFF, 7)] ∧
    Memory.wf defaultFont [(0x050, 0xF0)] = false ∧ Memory.wf defaultFont [(0x1000, 1)] = false := by decide +kernel

/-- FX55 with X = 1 at the top of memory, and the fetch at I. -/
theorem witness_FetchSeesStoredBytes :
    ((machine 0).setI 0xFFE).i.toNat + (1 : Reg).val ≤ 0xFFF ∧ (0 : Reg).val + 1 ≤ (1 : Reg).val ∧
    ∃ t, exec (.ldMemVx 1) ((machine 0).setI 0xFFE) = .next t ∧
      (({ t with pc := 0xFFE } : State).pc.toNat == ((machine 0).setI 0xFFE).i.toNat + (0 : Reg).val) = true :=
  ⟨by decide +kernel, by decide, next_any (by decide +kernel)⟩

/-- The bounds clauses of DXYN where they meet, and a covered pixel at each corner: a sprite byte 0x81 at (57, 31) covers
columns 57 and 0. -/
theorem witness_DrwXorsTheSprite :
    (15 > 0 ∧ (({ machine 0 with i := 0xFF2 } : State).i.toNat + 15 - 1 > 0xFFF)) ∧
    (({ machine 0 with i := 0xFF1 } : State).i.toNat + 15 - 1 ≤ 0xFFF) ∧
    SpriteCovers ((((machine 0).setI 0x300).memWrite 0x300 0x81).setReg 1 57 |>.setReg 2 31) 1 2 1 31 57 ∧
    SpriteCovers ((((machine 0).setI 0x300).memWrite 0x300 0x81).setReg 1 57 |>.setReg 2 31) 1 2 1 31 0 := by
  refine ⟨by decide, by decide, ⟨0, by omega, 0, by omega, ?_⟩, ⟨0, by omega, 7, by omega, ?_⟩⟩ <;> decide +kernel

/-- W8's premises: one sprite byte at I on a clear screen. -/
def oneDot : State := ((machine 0).setI 0x300).memWrite 0x300 0x80

theorem witness_DrawingTwiceErases :
    oneDot.i.toNat + 1 - 1 ≤ 0xFFF ∧ (∃ py px, SpriteCovers oneDot 1 2 1 py px) ∧
    (∀ py px, SpriteCovers oneDot 1 2 1 py px → oneDot.fb.pixel py px = false) ∧
    ∃ t u, exec (.drw 1 2 1) oneDot = .next t ∧ exec (.drw 1 2 1) t = .next u := by
  refine ⟨by decide +kernel, ⟨0, 0, 0, by omega, 0, by omega, by decide +kernel⟩, ?_, ⟨_, _, rfl, rfl⟩⟩
  intro py px _
  show clearScreen.pixel py px = false
  simp [Framebuffer.pixel, clearScreen]

theorem witness_RetPopsOrUnderflows :
    0 < ({ machine 0 with sp := 1 } : State).sp.val ∧ 0 < ({ machine 0 with sp := 16 } : State).sp.val ∧
    (machine 0).sp.val = 0 := by decide

theorem witness_CallPushesOrOverflows :
    (machine 0).sp.val < 16 ∧ ({ machine 0 with sp := 15 } : State).sp.val < 16 ∧
    ({ machine 0 with sp := 16 } : State).sp.val = 16 := by decide

theorem witness_RetReturnsAfterTheCall :
    ∃ t w, ({ machine 0 with sp := 15 } : State).sp.val < 16 ∧
      exec (.call 0xABC) ({ machine 0 with sp := 15 } : State) = .next t ∧ exec .ret t = .next w :=
  ⟨_, _, by decide, rfl, rfl⟩

/-- A self-jump at the highest address, and a halted core. -/
theorem witness_EndOfRunIsStable :
    (machineAt 0xFFE 0x1FFE).atEnd = true ∧ (machineAt 0xFFE 0x1FFE).nextOp = .step ⟨0, 0⟩ ∧
    ({ machine 0 with run := .halted } : State).atEnd = true ∧ (nextOf (step (machineAt 0xFFE 0x1FFE))).isSome = true := by
  refine ⟨?_, rfl, ?_, ?_⟩ <;> decide +kernel

/-- The flag's two values, where the comparison turns: VY = VX and VY = VX - 1. -/
theorem witness_SubWritesFlagThenDifference :
    ¬ (((machine 0).setReg 1 7).setReg 2 7).reg 2 < (((machine 0).setReg 1 7).setReg 2 7).reg 1 ∧
    (((machine 0).setReg 1 7).setReg 2 6).reg 2 < (((machine 0).setReg 1 7).setReg 2 6).reg 1 := by decide +kernel

theorem witness_SubnWritesFlagThenDifference :
    ¬ (((machine 0).setReg 1 7).setReg 2 7).reg 1 < (((machine 0).setReg 1 7).setReg 2 7).reg 2 ∧
    (((machine 0).setReg 1 6).setReg 2 7).reg 1 < (((machine 0).setReg 1 6).setReg 2 7).reg 2 := by decide +kernel

/-- Both values of SHIFT_USES_VY. -/
theorem witness_ShrShiftsRight :
    (0x81 : Byte) = (if (machine 0).cfg.shiftUsesVy then ((machine 0).setReg 2 0x81).reg 2 else ((machine 0).setReg 2 0x81).reg 1) ∧
    (0 : Byte) = (if ({ machine 0 with cfg := ⟨false, defaultFont⟩ } : State).cfg.shiftUsesVy
      then ((machine 0).setReg 2 0x81).reg 2 else ((machine 0).setReg 2 0x81).reg 1) := by decide +kernel

theorem witness_ShlShiftsLeft :
    (0xFF : Byte) = (if (machine 0).cfg.shiftUsesVy then ((machine 0).setReg 15 0xFF).reg 15 else (machine 0).reg 1) ∧
    (0 : Byte) = (if ({ machine 0 with cfg := ⟨false, defaultFont⟩ } : State).cfg.shiftUsesVy
      then ((machine 0).setReg 15 0xFF).reg 15 else (machine 0).reg 1) := by decide +kernel

/-- The bounds clauses of FX33, FX55 and FX65 where they meet. -/
theorem witness_BcdStoresDecimalDigits :
    ({ machine 0 with i := 0xFFE } : State).i.toNat + 2 > 0xFFF ∧ ({ machine 0 with i := 0xFFD } : State).i.toNat + 2 ≤ 0xFFF := by
  decide

theorem witness_StoresRegistersAtI :
    ({ machine 0 with i := 0xFF1 } : State).i.toNat + (15 : Reg).val > 0xFFF ∧
    ({ machine 0 with i := 0xFF0 } : State).i.toNat + (15 : Reg).val ≤ 0xFFF ∧
    ({ machine 0 with i := 0xFFF } : State).i.toNat + (0 : Reg).val ≤ 0xFFF := by decide

theorem witness_LoadsRegistersFromI :
    ({ machine 0 with i := 0xFF1 } : State).i.toNat + (15 : Reg).val > 0xFFF ∧
    ({ machine 0 with i := 0xFF0 } : State).i.toNat + (15 : Reg).val ≤ 0xFFF ∧
    ({ machine 0 with i := 0x1000 } : State).i.toNat + (0 : Reg).val > 0xFFF := by decide

theorem witness_LoadAfterStoreRestoresRegisters :
    ∃ t u, ((machine 0).setI 0xFF0).i.toNat + (15 : Reg).val ≤ 0xFFF ∧
      exec (.ldMemVx 15) ((machine 0).setI 0xFF0) = .next t ∧
      exec (.ldVxMem 15) { t with v := Vector.replicate 16 9 } = .next u := ⟨_, _, by decide +kernel, rfl, rfl⟩

/-- VX = 0xF with key F held, VX = 0x10 with every key held: the last key and the first number that names none. -/
theorem witness_KeySkipsFollowTheKeypad :
    (true = true ↔ (((machine 0).setReg 1 0xF).reg 1).toNat ≤ 0xF ∧ (key 15).getLsbD (((machine 0).setReg 1 0xF).reg 1).toNat = true) ∧
    (false = true ↔ (((machine 0).setReg 1 0x10).reg 1).toNat ≤ 0xF ∧
      (0xFFFF : BitVec 16).getLsbD (((machine 0).setReg 1 0x10).reg 1).toNat = true) := by decide +kernel

/-- No key held; the highest key alone; every key held. -/
theorem witness_KeyWaitPollsTheKeypad :
    (∀ k < 16, (0 : BitVec 16).getLsbD k = false) ∧
    ((key 15).getLsbD 15 = true ∧ ∀ j < 15, (key 15).getLsbD j = false) ∧
    ((0xFFFF : BitVec 16).getLsbD 0 = true ∧ ∀ j < 0, (0xFFFF : BitVec 16).getLsbD j = false) := by decide

end Sys2Proof.Tests
end

section
/-! The control family (41_control.md): 1NNN and the register skips. -/

namespace Sys2Proof.Machine

/-! ### The program counter -/

/-- R82's successors of pc are sums of 16-bit words. -/
theorem trunc16_toNat_add (w : Word) (k : Nat) : trunc16 (w.toNat + k) = w + BitVec.ofNat 16 k := by
  simp [trunc16, BitVec.ofNat_add]

theorem onlyPc_setPc (s : State) (w : Word) : OnlyPc s (s.setPc w) := rfl

theorem pc_skipIf (s : State) (c : Bool) : (s.skipIf c).pc = s.pc + (if c then 4 else 2) := by
  rw [State.skipIf_eq, State.setPc_pc, trunc16_toNat_add]
  cases c <;> rfl

theorem onlyPc_skipIf (s : State) (c : Bool) : OnlyPc s (s.skipIf c) := onlyPc_setPc s _

/-- What an instruction does whose meaning is a conditional skip (R82): 4 bytes on where its condition `p` holds, 2
where it does not, and nothing else. -/
theorem skip_of_exec_skipIf {i : Instr} {s : State} {c : Bool} {p : Prop} [Decidable p]
    (hi : exec i s = .next (s.skipIf c)) (hc : c = true ↔ p) :
    ∃ t, exec i s = .next t ∧ t.pc = s.pc + (if p then 4 else 2) ∧ OnlyPc s t :=
  ⟨s.skipIf c, hi, by simp only [pc_skipIf, hc], onlyPc_skipIf s c⟩

/-! ### The meanings of 1NNN and the register skips (R111, R113 to R116) -/

theorem toNat_targetOf (nnn : BitVec 12) : (targetOf nnn).toNat = nnn.toNat :=
  BitVec.toNat_setWidth_of_le (by decide)

theorem exec_jp (nnn : BitVec 12) (s : State) : exec (.jp nnn) s = .next (s.setPc (targetOf nnn)) := rfl

theorem exec_seImm (x : Reg) (nn : Byte) (s : State) :
    exec (.seImm x nn) s = .next (s.skipIf (s.reg x == nn)) := rfl

theorem exec_sneImm (x : Reg) (nn : Byte) (s : State) :
    exec (.sneImm x nn) s = .next (s.skipIf (s.reg x != nn)) := rfl

theorem exec_seReg (x y : Reg) (s : State) :
    exec (.seReg x y) s = .next (s.skipIf (s.reg x == s.reg y)) := rfl

theorem exec_sneReg (x y : Reg) (s : State) :
    exec (.sneReg x y) s = .next (s.skipIf (s.reg x != s.reg y)) := rfl

/-! ### The obligations -/

/-- Settles O42: each register skip is a conditional skip, and its comparison decides its condition. -/
theorem registerSkipsFollowTheirConditions : Obligations.RegisterSkipsFollowTheirConditions := by
  intro s x y nn
  refine ⟨?_, ?_, ?_, ?_⟩
  · exact skip_of_exec_skipIf (exec_seImm x nn s) beq_iff_eq
  · simpa only [ite_not] using skip_of_exec_skipIf (exec_sneImm x nn s) bne_iff_ne
  · exact skip_of_exec_skipIf (exec_seReg x y s) beq_iff_eq
  · simpa only [ite_not] using skip_of_exec_skipIf (exec_sneReg x y s) bne_iff_ne

/-- Settles O39: the one write of 1NNN is that of pc, and widening NNN to 16 bits keeps its value. -/
theorem jpGoesToItsTarget : Obligations.JpGoesToItsTarget :=
  fun s nnn => ⟨s.setPc (targetOf nnn), exec_jp nnn s, toNat_targetOf nnn, onlyPc_setPc s _⟩

end Sys2Proof.Machine
end

section
/-! The register and arithmetic family (42_alu.md): 6XNN, 7XNN and 8XY0 to 8XY4. -/

namespace Sys2Proof.Machine

/-! ### Register writes and the advance of pc -/

theorem pc_advance_eq_add (s : State) : s.advance.pc = s.pc + 2 := trunc16_toNat_add s.pc 2

theorem onlyRegsPc_refl (s : State) : OnlyRegsPc s s := rfl

theorem OnlyRegsPc.setReg {s t : State} (h : OnlyRegsPc s t) (k : Reg) (b : Byte) : OnlyRegsPc s (t.setReg k b) :=
  congrArg (fun u : State => u.setReg k b) h

theorem OnlyRegsPc.advance {s t : State} (h : OnlyRegsPc s t) : OnlyRegsPc s t.advance :=
  congrArg State.advance h

/-- What an instruction does whose meaning is one register write and the advance of pc. -/
theorem load_of_exec_setReg {i : Instr} {s : State} {x : Reg} {b : Byte}
    (hi : exec i s = .next (s.setReg x b).advance) :
    ∃ t, exec i s = .next t ∧
      t.reg x = b ∧ (∀ k : Reg, k ≠ x → t.reg k = s.reg k) ∧ t.pc = s.pc + 2 ∧ OnlyRegsPc s t := by
  refine ⟨_, hi, ?_, ?_, pc_advance_eq_add _, ((onlyRegsPc_refl s).setReg x b).advance⟩
  · simp
  · intro k hk
    simp [hk]

/-- A load whose byte is made bit by bit from VX and VY by the Boolean operation `f` (R136 to R138). -/
theorem combineBits_of_exec_setReg (f : Bool → Bool → Bool) {i : Instr} {s : State} {x y : Reg} {b : Byte}
    (hi : exec i s = .next (s.setReg x b).advance)
    (hb : ∀ j, b.getLsbD j = f ((s.reg x).getLsbD j) ((s.reg y).getLsbD j)) :
    ∃ t, exec i s = .next t ∧
      (∀ j < 8, (t.reg x).getLsbD j = f ((s.reg x).getLsbD j) ((s.reg y).getLsbD j)) ∧
      (∀ k : Reg, k ≠ x → t.reg k = s.reg k) ∧ t.pc = s.pc + 2 ∧ OnlyRegsPc s t := by
  obtain ⟨t, ht, hx, hframe⟩ := load_of_exec_setReg hi
  exact ⟨t, ht, fun j _ => hx ▸ hb j, hframe⟩

/-! ### Sums and the carry (R134, R139) -/

theorem trunc8_toNat_add (a b : Byte) : trunc8 (a.toNat + b.toNat) = a + b := by
  simp [trunc8, BitVec.ofNat_add]

theorem carryFlag_eq_ite (a b : Byte) : carryFlag a b = if a.toNat + b.toNat > 0xFF then 1 else 0 := by
  simp [carryFlag, boolByte]

/-! ### The meanings of 6XNN, 7XNN and 8XY0 to 8XY4 -/

theorem exec_ldImm (x : Reg) (nn : Byte) (s : State) : exec (.ldImm x nn) s = .next (s.setReg x nn).advance := rfl

theorem exec_addImm (x : Reg) (nn : Byte) (s : State) :
    exec (.addImm x nn) s = .next (s.setReg x (s.reg x + nn)).advance := by
  rw [← trunc8_toNat_add]; rfl

theorem exec_ldReg (x y : Reg) (s : State) : exec (.ldReg x y) s = .next (s.setReg x (s.reg y)).advance := rfl

theorem exec_orReg (x y : Reg) (s : State) :
    exec (.orReg x y) s = .next (s.setReg x (s.reg x ||| s.reg y)).advance := rfl

theorem exec_andReg (x y : Reg) (s : State) :
    exec (.andReg x y) s = .next (s.setReg x (s.reg x &&& s.reg y)).advance := rfl

theorem exec_xorReg (x y : Reg) (s : State) :
    exec (.xorReg x y) s = .next (s.setReg x (s.reg x ^^^ s.reg y)).advance := rfl

/-- 8XY4 writes the sum and then, over it when X is F, the carry of the registers as they were (R139). -/
theorem exec_addReg (x y : Reg) (s : State) :
    exec (.addReg x y) s =
      .next ((s.setReg x (s.reg x + s.reg y)).setReg 15 (carryFlag (s.reg x) (s.reg y))).advance := by
  rw [← trunc8_toNat_add]; rfl

/-! ### The obligations -/

/-- Settles O46: VF is written last, so it reads as the carry whatever X is, and VX reads as the sum when X is not F. -/
theorem addSetsCarry : Obligations.AddSetsCarry := by
  intro s x y
  refine ⟨_, exec_addReg x y s, ?_, ?_, ?_, pc_advance_eq_add _,
    (((onlyRegsPc_refl s).setReg x _).setReg 15 _).advance⟩
  · intro hx
    simp [hx]
  · simp [carryFlag_eq_ite]
  · intro k hkx hkf
    simp [hkx, hkf]

/-- Settles O43: both forms are one register write and the advance of pc. -/
theorem loadsOfRegisters : Obligations.LoadsOfRegisters :=
  fun s x y nn => ⟨load_of_exec_setReg (exec_ldImm x nn s), load_of_exec_setReg (exec_ldReg x y s)⟩

/-- Settles O44: the one register write of 7XNN is that of the wrapped sum. -/
theorem addImmediateWrapsWithoutFlag : Obligations.AddImmediateWrapsWithoutFlag :=
  fun s x nn => load_of_exec_setReg (exec_addImm x nn s)

/-- Settles O45: each form is one register write, of a byte that combines VX and VY bit by bit. -/
theorem logicCombinesBits : Obligations.LogicCombinesBits :=
  fun s x y =>
    ⟨combineBits_of_exec_setReg or (exec_orReg x y s) fun _ => BitVec.getLsbD_or,
     combineBits_of_exec_setReg and (exec_andReg x y s) fun _ => BitVec.getLsbD_and,
     combineBits_of_exec_setReg Bool.xor (exec_xorReg x y s) fun _ => BitVec.getLsbD_xor⟩

end Sys2Proof.Machine
end

section
/-! The keypad and timer family (44_keypad_timers.md): FX07, FX15 and FX18. -/

namespace Sys2Proof.Machine

/-! ### The advance of pc as one write, and the sound gate -/

/-- R82's `next` as a sum of 16-bit words; `pc_advance_eq_add` is its reading at pc. -/
theorem advance_eq_setPc_add (s : State) : s.advance = s.setPc (s.pc + 2) :=
  congrArg s.setPc (trunc16_toNat_add s.pc 2)

theorem soundGate_eq_true_iff (s : State) : s.soundGate = true ↔ s.st ≠ 0 := bne_iff_ne

/-! ### The meanings of FX07, FX15 and FX18 (R182, R184, R185) -/

theorem exec_ldVxDt (x : Reg) (s : State) : exec (.ldVxDt x) s = .next (s.setReg x s.dt).advance := rfl

theorem exec_ldDtVx (x : Reg) (s : State) : exec (.ldDtVx x) s = .next (s.setDt (s.reg x)).advance := rfl

theorem exec_ldStVx (x : Reg) (s : State) : exec (.ldStVx x) s = .next (s.setSt (s.reg x)).advance := rfl

/-! ### The obligation -/

/-- Settles O60: FX07 is a register load; FX15 and FX18 are one timer write and the advance of pc, after which the
sound gate reads the ST just written. -/
theorem timerMoves : Obligations.TimerMoves := by
  intro s x
  refine ⟨load_of_exec_setReg (exec_ldVxDt x s), ?_, ?_⟩
  · exact ⟨_, exec_ldDtVx x s, advance_eq_setPc_add (s.setDt (s.reg x))⟩
  · exact ⟨_, exec_ldStVx x s, advance_eq_setPc_add (s.setSt (s.reg x)), soundGate_eq_true_iff _⟩

end Sys2Proof.Machine
end

section
/-! The encoding (30_encoding.md): the fields of R71's three forms, decoding an encoded instruction, encoding a decoded
one. -/

namespace Sys2Proof

/-! ### The fields of each form, read back -/

@[simp] theorem nibble1_encodeXY (f : BitVec 4) (x y : Reg) (k : BitVec 4) : nibble1 (encodeXY f x y k) = f := by
  apply BitVec.eq_of_toNat_eq
  rw [toNat_nibble1, toNat_encodeXY]
  omega

@[simp] theorem fieldX_encodeXY (f : BitVec 4) (x y : Reg) (k : BitVec 4) : fieldX (encodeXY f x y k) = x := by
  apply Fin.ext
  rw [val_fieldX, toNat_encodeXY]
  omega

@[simp] theorem fieldY_encodeXY (f : BitVec 4) (x y : Reg) (k : BitVec 4) : fieldY (encodeXY f x y k) = y := by
  apply Fin.ext
  rw [val_fieldY, toNat_encodeXY]
  omega

@[simp] theorem nibble4_encodeXY (f : BitVec 4) (x y : Reg) (k : BitVec 4) : nibble4 (encodeXY f x y k) = k := by
  apply BitVec.eq_of_toNat_eq
  rw [toNat_nibble4, toNat_encodeXY]
  omega

@[simp] theorem nibble1_encodeXNN (f : BitVec 4) (x : Reg) (nn : Byte) : nibble1 (encodeXNN f x nn) = f := by
  apply BitVec.eq_of_toNat_eq
  rw [toNat_nibble1, toNat_encodeXNN]
  omega

@[simp] theorem fieldX_encodeXNN (f : BitVec 4) (x : Reg) (nn : Byte) : fieldX (encodeXNN f x nn) = x := by
  apply Fin.ext
  rw [val_fieldX, toNat_encodeXNN]
  omega

@[simp] theorem fieldNN_encodeXNN (f : BitVec 4) (x : Reg) (nn : Byte) : fieldNN (encodeXNN f x nn) = nn := by
  apply BitVec.eq_of_toNat_eq
  rw [toNat_fieldNN, toNat_encodeXNN]
  omega

@[simp] theorem nibble1_encodeNNN (f : BitVec 4) (nnn : BitVec 12) : nibble1 (encodeNNN f nnn) = f := by
  apply BitVec.eq_of_toNat_eq
  rw [toNat_nibble1, toNat_encodeNNN]
  omega

@[simp] theorem fieldNNN_encodeNNN (f : BitVec 4) (nnn : BitVec 12) : fieldNNN (encodeNNN f nnn) = nnn := by
  apply BitVec.eq_of_toNat_eq
  rw [toNat_fieldNNN, toNat_encodeNNN]
  omega

/-! ### A word rebuilt from its fields -/

theorem encodeXY_of_fields {f k : BitVec 4} {op : Word} (hf : (nibble1 op).toNat = f.toNat)
    (hk : (nibble4 op).toNat = k.toNat) : encodeXY f (fieldX op) (fieldY op) k = op := by
  apply BitVec.eq_of_toNat_eq
  rw [toNat_encodeXY, val_fieldX, val_fieldY, ← hf, ← hk, toNat_nibble1, toNat_nibble4]
  omega

theorem encodeXNN_of_fields {f : BitVec 4} {nn : Byte} {op : Word} (hf : (nibble1 op).toNat = f.toNat)
    (hn : (fieldNN op).toNat = nn.toNat) : encodeXNN f (fieldX op) nn = op := by
  apply BitVec.eq_of_toNat_eq
  rw [toNat_encodeXNN, val_fieldX, ← hf, ← hn, toNat_nibble1, toNat_fieldNN]
  omega

theorem encodeNNN_of_fields {f : BitVec 4} {op : Word} (hf : (nibble1 op).toNat = f.toNat) :
    encodeNNN f (fieldNNN op) = op := by
  apply BitVec.eq_of_toNat_eq
  rw [toNat_encodeNNN, toNat_fieldNNN, ← hf, toNat_nibble1]
  omega

/-! ### Decoding an encoded instruction -/

/-- The decoder selects the row an encoded instruction was made from, and reads its operands back (R73). -/
theorem decodeWord_encode {i : Instr} (h : i.wellFormed = true) : decodeWord (encode i) = some i := by
  cases i with
  | cls | ret => rfl
  | jp | call | ldI | jpV0 => simp [encode, decodeWord]
  | seImm | sneImm | ldImm | addImm | rnd => simp [encode, decodeWord]
  | seReg | sneReg => simp [encode, decodeWord]
  | ldReg | orReg | andReg | xorReg | addReg | sub | shr | subn | shl => simp [encode, decodeWord, decodeFamily8]
  | skp | sknp => simp [encode, decodeWord, decodeFamilyE]
  | ldVxDt | ldVxK | ldDtVx | ldStVx | addIVx | ldFVx | ldBVx | ldMemVx | ldVxMem =>
    simp [encode, decodeWord, decodeFamilyF]
  | drw x y n =>
    have hn : n ≤ 15 := of_decide_eq_true h
    simp [encode, decodeWord, fieldN]
    omega

/-- The decoder takes two bytes and decodes their word (R70). -/
theorem decode_eq_ok {hi lo : Byte} {i : Instr} (h : decodeWord (wordOfBytes hi lo) = some i) (rest : List Byte) :
    decode (hi :: lo :: rest) = .ok (i, rest) := by
  simp [decode, h]

/-! ### Encoding a decoded word -/

theorem encode_of_decodeFamily0 {op : Word} {i : Instr} (h : decodeFamily0 op = some i) :
    i.wellFormed = true ∧ encode i = op := by
  unfold decodeFamily0 at h
  split at h
  · cases h; simp_all [encode, Instr.wellFormed]
  · split at h
    · cases h; simp_all [encode, Instr.wellFormed]
    · cases h

theorem encode_of_decodeFamily8 {op : Word} {i : Instr} (hf : (nibble1 op).toNat = 8)
    (h : decodeFamily8 op = some i) : i.wellFormed = true ∧ encode i = op := by
  unfold decodeFamily8 at h
  split at h <;> cases h <;> exact ⟨rfl, encodeXY_of_fields hf ‹_›⟩

theorem encode_of_decodeFamilyE {op : Word} {i : Instr} (hf : (nibble1 op).toNat = 0xE)
    (h : decodeFamilyE op = some i) : i.wellFormed = true ∧ encode i = op := by
  unfold decodeFamilyE at h
  split at h <;> cases h <;> exact ⟨rfl, encodeXNN_of_fields hf ‹_›⟩

theorem encode_of_decodeFamilyF {op : Word} {i : Instr} (hf : (nibble1 op).toNat = 0xF)
    (h : decodeFamilyF op = some i) : i.wellFormed = true ∧ encode i = op := by
  unfold decodeFamilyF at h
  split at h <;> cases h <;> exact ⟨rfl, encodeXNN_of_fields hf ‹_›⟩

/-- A word the decoder maps is the word of the instruction it maps it to (R74). -/
theorem encode_of_decodeWord {op : Word} {i : Instr} (h : decodeWord op = some i) :
    i.wellFormed = true ∧ encode i = op := by
  unfold decodeWord at h
  split at h
  case h_1 => exact encode_of_decodeFamily0 h
  case h_9 hf => exact encode_of_decodeFamily8 hf h
  case h_15 hf => exact encode_of_decodeFamilyE hf h
  case h_16 =>
    have hlt := (nibble1 op).isLt
    have hf : (nibble1 op).toNat = 0xF := by simp only [imp_false] at *; omega
    exact encode_of_decodeFamilyF hf h
  case h_6 hf | h_10 hf =>
    all_goals
      split at h
      · rename_i hk
        cases h
        exact ⟨rfl, encodeXY_of_fields hf (by simp [hk])⟩
      · cases h
  case h_14 hf =>
    cases h
    exact ⟨decide_eq_true (Nat.le_of_lt_succ (nibble4 op).isLt), encodeXY_of_fields hf (by simp [fieldN])⟩
  case h_2 hf | h_3 hf | h_11 hf | h_12 hf => all_goals cases h; exact ⟨rfl, encodeNNN_of_fields hf⟩
  case h_4 hf | h_5 hf | h_7 hf | h_8 hf | h_13 hf => all_goals cases h; exact ⟨rfl, encodeXNN_of_fields hf rfl⟩

/-! ### The words no row maps -/

theorem decodeFamily0_eq_none_iff (op : Word) : decodeFamily0 op = none ↔ op.toNat ≠ 0x00E0 ∧ op.toNat ≠ 0x00EE := by
  unfold decodeFamily0
  simp only [← BitVec.toNat_inj]
  split
  · simp_all
  · split <;> simp_all

theorem decodeFamily8_eq_none_iff (op : Word) :
    decodeFamily8 op = none ↔ op.toNat % 16 ∈ [0x8, 0x9, 0xA, 0xB, 0xC, 0xD, 0xF] := by
  unfold decodeFamily8
  rw [toNat_nibble4]
  split
  case h_10 => simp only [imp_false] at *; simp; omega
  all_goals simp [*]

theorem decodeFamilyE_eq_none_iff (op : Word) : decodeFamilyE op = none ↔ op.toNat % 256 ∉ [0x9E, 0xA1] := by
  unfold decodeFamilyE
  rw [toNat_fieldNN]
  split <;> simp_all

theorem decodeFamilyF_eq_none_iff (op : Word) :
    decodeFamilyF op = none ↔ op.toNat % 256 ∉ [0x07, 0x0A, 0x15, 0x18, 0x1E, 0x29, 0x33, 0x55, 0x65] := by
  unfold decodeFamilyF
  rw [toNat_fieldNN]
  split <;> simp_all

theorem nibble4_eq_zero_iff (op : Word) : nibble4 op = 0#4 ↔ op.toNat % 16 = 0 := by
  rw [← BitVec.toNat_inj, toNat_nibble4]
  rfl

/-! ### The obligations -/

/-- Settles O3: decoding is inverted family by family, since each form of R71 is rebuilt from its fields. -/
theorem encodeInvertsDecode : Obligations.EncodeInvertsDecode := fun _ _ h => encode_of_decodeWord h

/-- Settles O2: the two bytes make the instruction's word again, which decodes to the instruction. -/
theorem decodeInvertsEncode : Obligations.DecodeInvertsEncode := by
  intro i rest hi
  refine decode_eq_ok ?_ rest
  rw [wordOfBytes_bytes]
  exact decodeWord_encode hi

/-- Settles O5: a mapped word is the word of its instruction, and each of R71's forms places its operands where R72
reads them. -/
theorem operandsAreTheWordsFields : Obligations.OperandsAreTheWordsFields := by
  intro op i h
  obtain ⟨hwf, rfl⟩ := encode_of_decodeWord h
  cases i with
  | cls | ret => trivial
  | jp | call | ldI | jpV0 =>
    all_goals
      simp only [encode, toNat_encodeNNN]
      omega
  | seImm | sneImm | ldImm | addImm | rnd | skp | sknp | ldVxDt | ldVxK | ldDtVx | ldStVx | addIVx | ldFVx | ldBVx
  | ldMemVx | ldVxMem =>
    all_goals
      simp only [encode, toNat_encodeXNN]
      omega
  | seReg | ldReg | orReg | andReg | xorReg | addReg | sub | shr | subn | shl | sneReg =>
    all_goals
      simp only [encode, toNat_encodeXY]
      omega
  | drw x y n =>
    have hn : n ≤ 15 := of_decide_eq_true hwf
    simp only [encode, toNat_encodeXY, BitVec.toNat_ofNat]
    omega

/-- Settles O6: each family of R73 has its own unmapped words, and the first nibble tells the families apart. -/
theorem unmappedWordsAreTheFamilies : Obligations.UnmappedWordsAreTheFamilies := by
  intro op
  have hlow : op.toNat < 0x1000 ↔ op.toNat / 4096 = 0 := by omega
  rw [hlow]
  unfold decodeWord
  rw [toNat_nibble1]
  split
  case h_1 hf => simp [hf, decodeFamily0_eq_none_iff]
  case h_9 hf => simp [hf, decodeFamily8_eq_none_iff]
  case h_15 hf => simp [hf, decodeFamilyE_eq_none_iff]
  case h_16 =>
    have hlt := op.isLt
    have hf : op.toNat / 4096 = 0xF := by simp only [imp_false] at *; omega
    simp [hf, decodeFamilyF_eq_none_iff]
  case h_6 hf | h_10 hf => all_goals simp [hf, nibble4_eq_zero_iff]
  case h_2 hf | h_3 hf | h_4 hf | h_5 hf | h_7 hf | h_8 hf | h_11 hf | h_12 hf | h_13 hf | h_14 hf =>
    all_goals simp [hf]

/-- Settles O1: the decoder computes on each word. -/
theorem specWordsDecode : Obligations.SpecWordsDecode := ⟨rfl, rfl, rfl, rfl, rfl, rfl, rfl, rfl, rfl⟩

end Sys2Proof
end

section
/-! The decoder and the opcode table (30_encoding.md, R74). -/

namespace Sys2Proof

/-! ### What the masks of R74 keep of any word -/

theorem toNat_and_FFFF (op : Word) : (op &&& 0xFFFF).toNat = op.toNat := by
  rw [show (0xFFFF : Word) = BitVec.allOnes 16 from rfl, BitVec.and_allOnes]

theorem and_F000 (op : Word) : op &&& 0xF000 = encodeNNN (nibble1 op) 0 := by
  have h := encodeNNN_mask (nibble1 op) (fieldNNN op)
  rwa [encodeNNN_of_fields rfl] at h

theorem and_F00F (op : Word) : op &&& 0xF00F = encodeXY (nibble1 op) 0 0 (nibble4 op) := by
  have h := encodeXY_mask (nibble1 op) (fieldX op) (fieldY op) (nibble4 op)
  rwa [encodeXY_of_fields rfl rfl] at h

theorem and_F0FF (op : Word) : op &&& 0xF0FF = encodeXNN (nibble1 op) 0 (fieldNN op) := by
  have h := encodeXNN_mask_low (nibble1 op) (fieldX op) (fieldNN op)
  rwa [encodeXNN_of_fields rfl rfl] at h

theorem toNat_and_F000 (op : Word) : (op &&& 0xF000).toNat = op.toNat / 4096 * 4096 := by
  rw [and_F000, toNat_encodeNNN, toNat_nibble1]
  simp

theorem toNat_and_F00F (op : Word) : (op &&& 0xF00F).toNat = op.toNat / 4096 * 4096 + op.toNat % 16 := by
  rw [and_F00F, toNat_encodeXY, toNat_nibble1, toNat_nibble4]
  simp

theorem toNat_and_F0FF (op : Word) : (op &&& 0xF0FF).toNat = op.toNat / 4096 * 4096 + op.toNat % 256 := by
  rw [and_F0FF, toNat_encodeXNN, toNat_nibble1, toNat_fieldNN]
  simp

/-! ### Rows and words -/

/-- No word matches both rows: they differ on a bit both masks keep. -/
def OpcodeRow.Disjoint (r q : OpcodeRow) : Prop := r.pattern &&& q.mask ≠ q.pattern &&& r.mask

theorem OpcodeRow.Disjoint.not_both {r q : OpcodeRow} (h : r.Disjoint q) {op : Word}
    (hr : op &&& r.mask = r.pattern) (hq : op &&& q.mask = q.pattern) : False := by
  apply h
  rw [← hr, ← hq, BitVec.and_assoc, BitVec.and_assoc, BitVec.and_comm r.mask]

theorem opcodeTable_pairwise_disjoint : opcodeTable.Pairwise OpcodeRow.Disjoint := by
  unfold OpcodeRow.Disjoint
  decide

/-- Two rows one word matches are one row. -/
theorem row_unique {op : Word} {r q : OpcodeRow} (hr : r ∈ opcodeTable) (hq : q ∈ opcodeTable)
    (mr : op &&& r.mask = r.pattern) (mq : op &&& q.mask = q.pattern) : r = q := by
  have : Std.Symm OpcodeRow.Disjoint := ⟨fun _ _ h => Ne.symm h⟩
  by_contra hne
  exact (opcodeTable_pairwise_disjoint.forall hr hq hne).not_both mr mq

/-- The laws of `Laws.EncodesItsRow` as one statement about every instruction. -/
theorem encodesItsRow : ∀ i : Instr, Laws.EncodesItsRow.Statement i
  | .cls => Laws.EncodesItsRow.cls
  | .ret => Laws.EncodesItsRow.ret
  | .jp nnn => Laws.EncodesItsRow.jp nnn
  | .call nnn => Laws.EncodesItsRow.call nnn
  | .seImm x nn => Laws.EncodesItsRow.seImm x nn
  | .sneImm x nn => Laws.EncodesItsRow.sneImm x nn
  | .seReg x y => Laws.EncodesItsRow.seReg x y
  | .ldImm x nn => Laws.EncodesItsRow.ldImm x nn
  | .addImm x nn => Laws.EncodesItsRow.addImm x nn
  | .ldReg x y => Laws.EncodesItsRow.ldReg x y
  | .orReg x y => Laws.EncodesItsRow.orReg x y
  | .andReg x y => Laws.EncodesItsRow.andReg x y
  | .xorReg x y => Laws.EncodesItsRow.xorReg x y
  | .addReg x y => Laws.EncodesItsRow.addReg x y
  | .sub x y => Laws.EncodesItsRow.sub x y
  | .shr x y => Laws.EncodesItsRow.shr x y
  | .subn x y => Laws.EncodesItsRow.subn x y
  | .shl x y => Laws.EncodesItsRow.shl x y
  | .sneReg x y => Laws.EncodesItsRow.sneReg x y
  | .ldI nnn => Laws.EncodesItsRow.ldI nnn
  | .jpV0 nnn => Laws.EncodesItsRow.jpV0 nnn
  | .rnd x nn => Laws.EncodesItsRow.rnd x nn
  | .drw x y n => Laws.EncodesItsRow.drw x y n
  | .skp x => Laws.EncodesItsRow.skp x
  | .sknp x => Laws.EncodesItsRow.sknp x
  | .ldVxDt x => Laws.EncodesItsRow.ldVxDt x
  | .ldVxK x => Laws.EncodesItsRow.ldVxK x
  | .ldDtVx x => Laws.EncodesItsRow.ldDtVx x
  | .ldStVx x => Laws.EncodesItsRow.ldStVx x
  | .addIVx x => Laws.EncodesItsRow.addIVx x
  | .ldFVx x => Laws.EncodesItsRow.ldFVx x
  | .ldBVx x => Laws.EncodesItsRow.ldBVx x
  | .ldMemVx x => Laws.EncodesItsRow.ldMemVx x
  | .ldVxMem x => Laws.EncodesItsRow.ldVxMem x

theorem row_of_decodeWord {op : Word} {i : Instr} (h : decodeWord op = some i) :
    ∃ row ∈ opcodeTable, row.mnemonic = i.mnemonic ∧ op &&& row.mask = row.pattern := by
  obtain ⟨row, hmem, hname, hmatch⟩ := encodesItsRow i
  rw [(encode_of_decodeWord h).2] at hmatch
  exact ⟨row, hmem, hname, beq_iff_eq.1 hmatch⟩

/-- A word of R76's families matches no row. -/
theorem no_row_of_unmapped {op : Word} (h : decodeWord op = none) :
    ∀ row ∈ opcodeTable, op &&& row.mask ≠ row.pattern := by
  have hf := (unmappedWordsAreTheFamilies op).1 h
  simp only [List.mem_cons, List.not_mem_nil, or_false] at hf
  simp only [opcodeTable, opcodeRowsLow, opcodeRowsHigh, List.cons_append, List.nil_append, List.forall_mem_cons,
    ne_eq, ← BitVec.toNat_inj, toNat_and_FFFF, toNat_and_F000, toNat_and_F00F, toNat_and_F0FF, BitVec.reduceToNat,
    List.not_mem_nil, false_imp_iff, implies_true, and_true]
  omega

/-- Settles O4: a mapped word is its instruction's word, which matches the row of that instruction; R76's families
match no row; and no two rows share a word. -/
theorem decoderFollowsOpcodeTable : Obligations.DecoderFollowsOpcodeTable := by
  refine ⟨rfl, fun _ _ => row_of_decodeWord, fun op => ⟨no_row_of_unmapped, fun h => ?_⟩,
    fun _ _ hr _ hq => row_unique hr hq⟩
  by_contra hne
  obtain ⟨i, hi⟩ := Option.ne_none_iff_exists'.1 hne
  obtain ⟨row, hmem, _, hmatch⟩ := row_of_decodeWord hi
  exact h row hmem hmatch

end Sys2Proof
end

section
/-! The forms that write a flag and then a register (42_alu.md): 8XY5 to 8XY7 and 8XYE; and CXNN. -/

namespace Sys2Proof.Machine

/-! ### A flag, then a register -/

/-- What an instruction does that writes VF with `f` and then VX with `b`, from a state `u` that differs from `s` at
most in VX: VX reads as `b` even when X is F (R131). -/
theorem flagThenWrite_of_exec {i : Instr} {s u : State} {x : Reg} {f b : Byte} (hu : OnlyRegsPc s u)
    (hr : ∀ k : Reg, k ≠ x → u.reg k = s.reg k) (hpc : u.pc = s.pc)
    (hi : exec i s = .next ((u.setReg 15 f).setReg x b).advance) :
    ∃ t, exec i s = .next t ∧ t.reg x = b ∧ (x ≠ 15 → t.reg 15 = f) ∧
      (∀ k : Reg, k ≠ x → k ≠ 15 → t.reg k = s.reg k) ∧ t.pc = s.pc + 2 ∧ OnlyRegsPc s t := by
  refine ⟨_, hi, ?_, ?_, ?_, ?_, ((hu.setReg 15 f).setReg x b).advance⟩
  · simp
  · intro hx
    simp [Ne.symm hx]
  · intro k hkx hkf
    simp [hkx, hkf, hr]
  · rw [pc_advance_eq_add, State.setReg_pc, State.setReg_pc, hpc]

/-! ### Differences and shifts as bytes -/

@[simp] theorem toNat_trunc8 (n : Nat) : (trunc8 n).toNat = n % 256 := by
  rw [trunc8, BitVec.toNat_ofNat]

/-- R8's `trunc_8` of the difference plus 256 is the wrapped difference. -/
theorem trunc8_toNat_sub (a b : Byte) : trunc8 (a.toNat + 256 - b.toNat) = a - b := by
  apply BitVec.eq_of_toNat_eq
  rw [toNat_trunc8, BitVec.toNat_sub]
  omega

theorem subInto_eq_setReg (s : State) (x a b : Reg) : s.subInto x a b = s.setReg x (s.reg a - s.reg b) := by
  rw [← trunc8_toNat_sub]; rfl

theorem greaterFlag_eq_ite (a b : Byte) : greaterFlag a b = if b < a then 1 else 0 := by
  simp [greaterFlag, boolByte, BitVec.lt_def]

theorem toNat_boolByte (b : Bool) : (boolByte b).toNat = b.toNat := by cases b <;> rfl

theorem toNat_lowBitFlag (a : Byte) : (lowBitFlag a).toNat = a.toNat % 2 := by
  rw [lowBitFlag, toNat_boolByte, BitVec.getLsbD, Nat.testBit_zero]
  rcases Nat.mod_two_eq_zero_or_one a.toNat with h | h <;> simp [h]

theorem toNat_highBitFlag (a : Byte) : (highBitFlag a).toNat = a.toNat / 128 := by
  have := a.isLt
  rw [highBitFlag, toNat_boolByte, BitVec.getLsbD, Nat.testBit_eq_decide_div_mod_eq]
  rcases (by omega : a.toNat / 128 = 0 ∨ a.toNat / 128 = 1) with h | h <;> simp [h]

/-! ### The copy of 8XY6 and 8XYE (R132) -/

theorem reg_shiftSource_same (s : State) (x y : Reg) :
    (s.shiftSource x y).reg x = if s.cfg.shiftUsesVy then s.reg y else s.reg x := by
  unfold State.shiftSource
  split <;> simp

theorem reg_shiftSource_of_ne (s : State) {x y k : Reg} (h : k ≠ x) : (s.shiftSource x y).reg k = s.reg k := by
  unfold State.shiftSource
  split <;> simp [h]

theorem onlyRegsPc_shiftSource (s : State) (x y : Reg) : OnlyRegsPc s (s.shiftSource x y) := by
  unfold State.shiftSource
  split
  · exact (onlyRegsPc_refl s).setReg x _
  · exact onlyRegsPc_refl s

@[simp] theorem shiftSource_pc (s : State) (x y : Reg) : (s.shiftSource x y).pc = s.pc := by
  unfold State.shiftSource
  split <;> rfl

/-! ### The meanings -/

theorem exec_sub (x y : Reg) (s : State) :
    exec (.sub x y) s =
      .next ((s.setReg 15 (greaterFlag (s.reg x) (s.reg y))).subInto x x y).advance := rfl

theorem exec_subn (x y : Reg) (s : State) :
    exec (.subn x y) s =
      .next ((s.setReg 15 (greaterFlag (s.reg y) (s.reg x))).subInto x y x).advance := rfl

theorem exec_shr (x y : Reg) (s : State) :
    exec (.shr x y) s =
      .next (((s.shiftSource x y).setReg 15 (lowBitFlag ((s.shiftSource x y).reg x))).shiftRight x).advance := rfl

theorem exec_shl (x y : Reg) (s : State) :
    exec (.shl x y) s =
      .next (((s.shiftSource x y).setReg 15 (highBitFlag ((s.shiftSource x y).reg x))).shiftLeft x).advance := rfl

theorem exec_rnd (x : Reg) (nn : Byte) (s : State) :
    exec (.rnd x nn) s = .next (s.setReg x (s.rnd &&& nn)).advance := rfl

/-- What 8XY5 and 8XY7 do, as one: VF takes `f`, then VX the difference of Va and Vb as VF's write left them. -/
theorem flagThenDifference_of_exec {i : Instr} {s : State} {x a b : Reg} {f : Byte}
    (hi : exec i s = .next ((s.setReg 15 f).subInto x a b).advance) :
    ∃ t, exec i s = .next t ∧ t.reg x = (s.setReg 15 f).reg a - (s.setReg 15 f).reg b ∧ (x ≠ 15 → t.reg 15 = f) ∧
      (∀ k : Reg, k ≠ x → k ≠ 15 → t.reg k = s.reg k) ∧ t.pc = s.pc + 2 ∧ OnlyRegsPc s t := by
  rw [subInto_eq_setReg] at hi
  exact flagThenWrite_of_exec (onlyRegsPc_refl s) (fun _ _ => rfl) rfl hi

/-- What 8XY6 and 8XYE do, as one: VF takes `f`, then VX the shift, by `g`, of VX as VF's write left it. -/
theorem flagThenShift_of_exec {i : Instr} {s : State} {x y : Reg} {f : Byte} (g : Nat → Nat)
    (hi : exec i s = .next (((s.shiftSource x y).setReg 15 f).setReg x
      (trunc8 (g (((s.shiftSource x y).setReg 15 f).reg x).toNat))).advance) :
    ∃ t, exec i s = .next t ∧ t.reg x = trunc8 (g (((s.shiftSource x y).setReg 15 f).reg x).toNat) ∧
      (x ≠ 15 → t.reg 15 = f) ∧
      (∀ k : Reg, k ≠ x → k ≠ 15 → t.reg k = s.reg k) ∧ t.pc = s.pc + 2 ∧ OnlyRegsPc s t :=
  flagThenWrite_of_exec (onlyRegsPc_shiftSource s x y) (fun _ => reg_shiftSource_of_ne s) (shiftSource_pc s x y) hi

/-! ### The obligations -/

/-- Settles O47: with X or Y = F the difference reads the flag, where VF's write left it. -/
theorem subWritesFlagThenDifference : Obligations.SubWritesFlagThenDifference := by
  intro s x y f hf
  rw [← greaterFlag_eq_ite] at hf
  subst hf
  obtain ⟨t, ht, hx, hflag, hframe⟩ := flagThenDifference_of_exec (exec_sub x y s)
  refine ⟨t, ht, hflag, fun h1 h2 => ?_, fun h1 h2 => ?_, fun h1 h2 => ?_, fun h1 h2 => ?_, hframe⟩
  all_goals simpa [h1, h2] using hx

/-- Settles O48: as 8XY5, with the two registers of the difference exchanged. -/
theorem subnWritesFlagThenDifference : Obligations.SubnWritesFlagThenDifference := by
  intro s x y f hf
  rw [← greaterFlag_eq_ite] at hf
  subst hf
  obtain ⟨t, ht, hx, hflag, hframe⟩ := flagThenDifference_of_exec (exec_subn x y s)
  refine ⟨t, ht, hflag, fun h1 h2 => ?_, fun h1 h2 => ?_, fun h1 h2 => ?_, fun h1 h2 => ?_, hframe⟩
  all_goals simpa [h1, h2] using hx

/-- Settles O49: the copy gives VX the source, VF takes its bit 0, and the shift halves what VX then holds: the source,
or with X = F that bit. -/
theorem shrShiftsRight : Obligations.ShrShiftsRight := by
  intro s x y src hsrc
  rw [← reg_shiftSource_same] at hsrc
  subst hsrc
  obtain ⟨t, ht, hx, hflag, hframe⟩ := flagThenShift_of_exec (· / 2) (exec_shr x y s)
  have hsrc := ((s.shiftSource x y).reg x).isLt
  refine ⟨t, ht, fun h => ⟨?_, ?_⟩, fun h => ?_, hframe⟩
  · rw [hx, toNat_trunc8, State.reg_setReg, if_neg h]
    omega
  · rw [hflag h, toNat_lowBitFlag]
  · subst h
    rw [hx, State.reg_setReg, if_pos rfl, toNat_lowBitFlag]
    simp only [Nat.mod_div_self]
    rfl

/-- Settles O50: as 8XY6, with bit 7 and the doubling. -/
theorem shlShiftsLeft : Obligations.ShlShiftsLeft := by
  intro s x y src hsrc
  rw [← reg_shiftSource_same] at hsrc
  subst hsrc
  obtain ⟨t, ht, hx, hflag, hframe⟩ := flagThenShift_of_exec (· * 2) (exec_shl x y s)
  have hsrc := ((s.shiftSource x y).reg x).isLt
  refine ⟨t, ht, fun h => ⟨?_, ?_⟩, fun h => ?_, hframe⟩
  · rw [hx, toNat_trunc8, State.reg_setReg, if_neg h]
  · rw [hflag h, toNat_highBitFlag]
  · subst h
    rw [hx, toNat_trunc8, State.reg_setReg, if_pos rfl, toNat_highBitFlag]
    omega

/-- Settles O51: CXNN is one register write, of a byte that combines the random byte and NN bit by bit. -/
theorem rndMasksTheRandomByte : Obligations.RndMasksTheRandomByte := by
  intro s x nn
  obtain ⟨t, ht, hx, hframe⟩ := load_of_exec_setReg (exec_rnd x nn s)
  exact ⟨t, ht, fun j _ => by rw [hx, BitVec.getLsbD_and], hframe⟩

end Sys2Proof.Machine
end

section
/-! The index register and memory (43_index_memory.md): ANNN, FX1E, FX29, FX33, FX55, FX65. -/

namespace Sys2Proof.Machine

/-! ### The index register -/

theorem exec_ldI (nnn : BitVec 12) (s : State) : exec (.ldI nnn) s = .next (s.setI (targetOf nnn)).advance := rfl

theorem exec_addIVx (x : Reg) (s : State) :
    exec (.addIVx x) s = .next (s.setI (trunc16 (s.i.toNat + (s.reg x).toNat))).advance := rfl

theorem exec_ldFVx (x : Reg) (s : State) : exec (.ldFVx x) s = .next (s.setI (glyphAddress (s.reg x))).advance := rfl

@[simp] theorem toNat_trunc16 (n : Nat) : (trunc16 n).toNat = n % 65536 := by
  rw [trunc16, BitVec.toNat_ofNat]

/-- A glyph's address never wraps, whatever VX holds (R162). -/
theorem toNat_glyphAddress (v : Byte) : (glyphAddress v).toNat = 0x050 + 5 * v.toNat := by
  have := v.isLt
  rw [glyphAddress, toNat_trunc16]
  unfold Config.fontBase Config.glyphBytes
  omega

/-- What an instruction does whose meaning is one write of I and the advance of pc. -/
theorem index_of_exec_setI {i : Instr} {s : State} {w : Word} {n : Nat} (hi : exec i s = .next (s.setI w).advance)
    (hw : w.toNat = n) : ∃ t, exec i s = .next t ∧ t.i.toNat = n ∧ t.pc = s.pc + 2 ∧ OnlyIPc s t :=
  ⟨_, hi, hw, pc_advance_eq_add _, rfl⟩

/-- Settles O52: both forms are one write of I. -/
theorem indexRegisterWrites : Obligations.IndexRegisterWrites := fun s x nnn =>
  ⟨index_of_exec_setI (exec_ldI nnn s) (toNat_targetOf nnn), index_of_exec_setI (exec_addIVx x s) (toNat_trunc16 _)⟩

/-- Settles O53: FX29 is one write of I, and no glyph address wraps. -/
theorem glyphAddressOfVX : Obligations.GlyphAddressOfVX := fun s x =>
  index_of_exec_setI (exec_ldFVx x s) (toNat_glyphAddress _)

/-! ### Bounds and faults -/

theorem faultsWith_raiseFault (s : State) (c : FaultCause) : FaultsWith c s (s.raiseFault c) := rfl

/-- R52's check for a run of `n + 1` bytes. -/
theorem dataInBounds_succ_iff (s : State) (n : Nat) : s.dataInBounds (n + 1) = true ↔ s.i.toNat + n ≤ 0xFFF := by
  simp [State.dataInBounds_iff]

/-! ### What the loops leave unchanged -/

@[simp] theorem storeRegs_pc (s : State) (n : Nat) : (s.storeRegs n).pc = s.pc := by rw [State.storeRegs_frame]

@[simp] theorem storeRegs_i (s : State) (n : Nat) : (s.storeRegs n).i = s.i := by rw [State.storeRegs_frame]

@[simp] theorem loadRegs_pc (s : State) (n : Nat) : (s.loadRegs n).pc = s.pc := by rw [State.loadRegs_frame]

theorem OnlyMemPc.advance {s t : State} (h : OnlyMemPc s t) : OnlyMemPc s t.advance := congrArg State.advance h

theorem onlyMemPc_storeRegs (s : State) (n : Nat) : OnlyMemPc s (s.storeRegs n) := by
  rw [State.storeRegs_frame]; rfl

theorem storeDigits_frame (s : State) (v : Byte) : s.storeDigits v = { s with mem := (s.storeDigits v).mem } := by
  simp only [State.storeDigits, State.memWrite]

theorem onlyMemPc_storeDigits (s : State) (v : Byte) : OnlyMemPc s (s.storeDigits v) := by
  rw [storeDigits_frame]; rfl

theorem onlyRegsPc_loadRegs (s : State) (n : Nat) : OnlyRegsPc s (s.loadRegs n) := by
  rw [State.loadRegs_frame]; rfl

/-! ### The meanings -/

theorem exec_ldBVx_inBounds (x : Reg) {s : State} (h : s.i.toNat + 2 ≤ 0xFFF) :
    exec (.ldBVx x) s = .next (s.storeDigits (s.reg x)).advance :=
  congrArg Host.Outcome.next (if_pos ((dataInBounds_succ_iff s 2).2 h))

theorem exec_ldBVx_fault (x : Reg) {s : State} (h : s.i.toNat + 2 > 0xFFF) :
    exec (.ldBVx x) s = .next (s.raiseFault .dataBounds) :=
  congrArg Host.Outcome.next (if_neg (mt (dataInBounds_succ_iff s 2).1 (by omega)))

theorem exec_ldMemVx_inBounds {x : Reg} {s : State} (h : s.i.toNat + x.val ≤ 0xFFF) :
    exec (.ldMemVx x) s = .next (s.storeRegs (x.val + 1)).advance :=
  congrArg Host.Outcome.next (if_pos ((dataInBounds_succ_iff s x.val).2 h))

theorem exec_ldMemVx_fault {x : Reg} {s : State} (h : s.i.toNat + x.val > 0xFFF) :
    exec (.ldMemVx x) s = .next (s.raiseFault .dataBounds) :=
  congrArg Host.Outcome.next (if_neg (mt (dataInBounds_succ_iff s x.val).1 (by omega)))

theorem exec_ldVxMem_inBounds {x : Reg} {s : State} (h : s.i.toNat + x.val ≤ 0xFFF) :
    exec (.ldVxMem x) s = .next (s.loadRegs (x.val + 1)).advance :=
  congrArg Host.Outcome.next (if_pos ((dataInBounds_succ_iff s x.val).2 h))

theorem exec_ldVxMem_fault {x : Reg} {s : State} (h : s.i.toNat + x.val > 0xFFF) :
    exec (.ldVxMem x) s = .next (s.raiseFault .dataBounds) :=
  congrArg Host.Outcome.next (if_neg (mt (dataInBounds_succ_iff s x.val).1 (by omega)))

/-! ### Decimal digits and stored registers -/

theorem toNat_hundreds (v : Byte) : (hundreds v).toNat = v.toNat / 100 := by
  have := v.isLt
  rw [hundreds, toNat_trunc8]
  omega

theorem toNat_tens (v : Byte) : (tens v).toNat = v.toNat / 10 % 10 := by
  rw [tens, toNat_trunc8]
  omega

theorem toNat_ones (v : Byte) : (ones v).toNat = v.toNat % 10 := by
  rw [ones, toNat_trunc8]
  omega

theorem regOf_val (k : Reg) : regOf k.val = k := ((State.regOf_eq_iff k.val k.isLt k).2 rfl).symm

/-- What FX55 leaves at I + k for a register k it stores (R164). -/
theorem memByte_storeRegs_of_le (s : State) {x k : Reg} (h : k ≤ x) :
    (s.storeRegs (x.val + 1)).memByte (s.i.toNat + k.val) = s.reg k := by
  have hk : k.val ≤ x.val := h
  rw [State.memByte_storeRegs s _ (by omega), if_pos (by omega), Nat.add_sub_cancel_left, regOf_val]

/-! ### The obligations on memory -/

/-- Settles O54: the three stores put the digits where they are read back, and the digits of a byte add up to it. -/
theorem bcdStoresDecimalDigits : Obligations.BcdStoresDecimalDigits := by
  intro s x
  refine ⟨fun h => ⟨_, exec_ldBVx_fault x h, faultsWith_raiseFault _ _⟩, fun h => ?_⟩
  have h0 : (s.storeDigits (s.reg x)).memByte s.i.toNat = hundreds (s.reg x) := by
    simp [State.memByte_storeDigits]
  have h1 : (s.storeDigits (s.reg x)).memByte (s.i.toNat + 1) = tens (s.reg x) := by
    simp [State.memByte_storeDigits]
  have h2 : (s.storeDigits (s.reg x)).memByte (s.i.toNat + 2) = ones (s.reg x) := by
    simp [State.memByte_storeDigits]
  refine ⟨_, exec_ldBVx_inBounds x h, ?_, ?_, ?_, fun a ha0 ha1 ha2 => ?_, pc_advance_eq_add _,
    (onlyMemPc_storeDigits s _).advance⟩
  · simp only [State.memByte_advance, h0, h1, h2, toNat_hundreds, toNat_tens, toNat_ones]
    omega
  · rw [State.memByte_advance, h1, toNat_tens]
    omega
  · rw [State.memByte_advance, h2, toNat_ones]
    omega
  · simp [State.memByte_storeDigits, ha0, ha1, ha2]

/-- Settles O55: the store loop leaves VK at I + K and every other byte as it was. -/
theorem storesRegistersAtI : Obligations.StoresRegistersAtI := by
  intro s x
  refine ⟨fun h => ⟨_, exec_ldMemVx_fault h, faultsWith_raiseFault _ _⟩, fun h => ?_⟩
  refine ⟨_, exec_ldMemVx_inBounds h, fun k hk => ?_, fun a ha => ?_, ?_, (onlyMemPc_storeRegs s _).advance⟩
  · rw [State.memByte_advance, memByte_storeRegs_of_le s hk]
  · rw [State.memByte_advance, State.memByte_storeRegs s _ (by omega), if_neg (by omega)]
  · rw [pc_advance_eq_add, storeRegs_pc]

/-- Settles O56: the load loop leaves the byte at I + K in VK and the registers above VX as they were. -/
theorem loadsRegistersFromI : Obligations.LoadsRegistersFromI := by
  intro s x
  refine ⟨fun h => ⟨_, exec_ldVxMem_fault h, faultsWith_raiseFault _ _⟩, fun h => ?_⟩
  refine ⟨_, exec_ldVxMem_inBounds h, fun k hk => ?_, fun k hk => ?_, ?_, (onlyRegsPc_loadRegs s _).advance⟩
  · rw [State.reg_advance, State.reg_loadRegs s _ (by omega), if_pos (Nat.lt_succ_of_le hk)]
  · rw [State.reg_advance, State.reg_loadRegs s _ (by omega), if_neg (by have : x.val < k.val := hk; omega)]
  · rw [pc_advance_eq_add, loadRegs_pc]

/-- Settles O57: FX65 reads the addresses FX55 wrote, since neither changes I. -/
theorem loadAfterStoreRestoresRegisters : Obligations.LoadAfterStoreRestoresRegisters := by
  intro s t u x v hbound ht hu
  obtain ⟨_, hstore⟩ := storesRegistersAtI s x
  obtain ⟨t', ht', hbytes, _, _, hframe⟩ := hstore hbound
  obtain rfl : t' = t := Host.Outcome.next.inj (ht'.symm.trans ht)
  have hi : t'.i = s.i := by rw [hframe]
  obtain ⟨_, hload⟩ := loadsRegistersFromI { t' with v := v } x
  obtain ⟨u', hu', hlow, hhigh, _⟩ := hload (by rw [← hi] at hbound; exact hbound)
  obtain rfl : u' = u := Host.Outcome.next.inj (hu'.symm.trans hu)
  refine ⟨fun k hk => ?_, fun k hk => hhigh k hk⟩
  rw [hlow k hk, ← hbytes k hk, ← hi]
  rfl

/-- Settles O31: the two bytes a fetch reads are two registers that FX55 stored side by side. -/
theorem fetchSeesStoredBytes : Obligations.FetchSeesStoredBytes := by
  intro s t x k hbound hk ht u hmem hcfg hpc
  obtain ⟨_, hstore⟩ := storesRegistersAtI s x
  obtain ⟨t', ht', hbytes, _⟩ := hstore hbound
  obtain rfl : t' = t := Host.Outcome.next.inj (ht'.symm.trans ht)
  have hsucc : (k + 1).val = k.val + 1 := Fin.val_add_one_of_lt' (by omega)
  have hread : ∀ a, u.memByte a = t'.memByte a := fun a => by simp only [State.memByte, hmem, hcfg]
  refine (State.fetchWord_eq_some u).2 ⟨by omega, ?_⟩
  have h0 : t'.memByte (s.i.toNat + k.val) = s.reg k := hbytes k (Fin.le_def.2 (by omega))
  have h1 : t'.memByte (s.i.toNat + (k + 1).val) = s.reg (k + 1) := hbytes (k + 1) (Fin.le_def.2 (by omega))
  rw [hpc, hread, hread, h0, ← h1, hsucc, Nat.add_assoc]

end Sys2Proof.Machine
end

section
/-! The keypad (44_keypad_timers.md): EX9E, EXA1, FX0A. -/

namespace Sys2Proof.Machine

theorem exec_skp (x : Reg) (s : State) : exec (.skp x) s = .next (s.skipIf (s.keyHeld (s.reg x))) := rfl

theorem exec_sknp (x : Reg) (s : State) : exec (.sknp x) s = .next (s.skipIf (!s.keyHeld (s.reg x))) := rfl

theorem keyHeld_iff (s : State) (k : Byte) : s.keyHeld k = true ↔ k.toNat ≤ 0xF ∧ s.keys.getLsbD k.toNat = true := by
  simp [State.keyHeld]

theorem leastKey_eq_none_iff (s : State) : s.leastKey = none ↔ ∀ k < 16, s.keys.getLsbD k = false := by
  rw [State.leastKey, List.find?_eq_none]
  simp only [List.mem_finRange, true_imp_iff, Bool.not_eq_true]
  exact Fin.forall_iff

/-- The key FX0A takes is held and no lower one is (R183). -/
theorem leastKey_eq_some {s : State} {k : Nat} (hk : k < 16) (held : s.keys.getLsbD k = true)
    (least : ∀ j < k, s.keys.getLsbD j = false) : s.leastKey = some ⟨k, hk⟩ := by
  refine List.find?_eq_some_iff_getElem.2 ⟨held, k, by simpa using hk, by simp, fun j hj => ?_⟩
  simp [least j hj]

theorem exec_ldVxK_none (x : Reg) {s : State} (h : s.leastKey = none) : exec (.ldVxK x) s = .next s := by
  simp [exec, execLdVxK, h, State.setPc]

theorem exec_ldVxK_some (x : Reg) {s : State} {k : Fin 16} (h : s.leastKey = some k) :
    exec (.ldVxK x) s = .next (s.setReg x (trunc8 k.val)).advance := by
  simp [exec, execLdVxK, h]

/-- Settles O58: both forms are conditional skips on whether the key numbered VX is held. -/
theorem keySkipsFollowTheKeypad : Obligations.KeySkipsFollowTheKeypad := by
  intro s x held hheld
  rw [← keyHeld_iff, ← Bool.eq_iff_iff] at hheld
  subst hheld
  refine ⟨skip_of_exec_skipIf (exec_skp x s) Iff.rfl, ?_⟩
  have hnot : (!s.keyHeld (s.reg x)) = true ↔ ¬ s.keyHeld (s.reg x) = true := by simp
  simpa only [ite_not] using skip_of_exec_skipIf (exec_sknp x s) hnot

/-- Settles O59: with no key held FX0A writes pc with itself; with a least key it is one register write. -/
theorem keyWaitPollsTheKeypad : Obligations.KeyWaitPollsTheKeypad := by
  intro s x
  refine ⟨fun h => exec_ldVxK_none x ((leastKey_eq_none_iff s).2 h), fun k hk held least => ?_⟩
  obtain ⟨t, ht, hx, hframe⟩ := load_of_exec_setReg (exec_ldVxK_some x (leastKey_eq_some hk held least))
  refine ⟨t, ht, ?_, hframe⟩
  rw [hx, toNat_trunc8]
  exact Nat.mod_eq_of_lt (by omega)

end Sys2Proof.Machine
end

section
/-! The call stack and BNNN (41_control.md). -/

namespace Sys2Proof.Machine

theorem exec_ret_pop {s : State} (h : 0 < s.sp.val) :
    exec .ret s = .next { s with sp := ⟨s.sp.val - 1, by omega⟩, pc := s.stack[s.sp.val - 1]'(by omega) } := by
  simp [exec, execRet, State.pop_of_pos s h, State.setPc]

theorem exec_ret_underflow {s : State} (h : s.sp.val = 0) : exec .ret s = .next (s.raiseFault .stackUnderflow) := by
  simp [exec, execRet, State.pop_of_empty s h]

theorem nextPc_eq_add (s : State) : s.nextPc = s.pc + 2 := trunc16_toNat_add s.pc 2

theorem exec_call_push (nnn : BitVec 12) {s : State} (h : s.sp.val < 16) :
    exec (.call nnn) s = .next { s with
      stack := s.stack.set s.sp.val (s.pc + 2)
      sp := ⟨s.sp.val + 1, by omega⟩
      pc := targetOf nnn } := by
  simp [exec, execCall, State.push_of_lt s _ h, State.setPc, nextPc_eq_add]

theorem exec_call_overflow (nnn : BitVec 12) {s : State} (h : s.sp.val = 16) :
    exec (.call nnn) s = .next (s.raiseFault .stackOverflow) := by
  simp [exec, execCall, State.push_of_full s _ h]

theorem exec_jpV0 (nnn : BitVec 12) (s : State) :
    exec (.jpV0 nnn) s = .next (s.setPc (trunc16 ((targetOf nnn).toNat + (s.reg 0).toNat))) := rfl

/-- Settles O36: the two depths of Pop. -/
theorem retPopsOrUnderflows : Obligations.RetPopsOrUnderflows := by
  intro s
  refine ⟨fun h => ⟨_, exec_ret_pop h, rfl, Nat.sub_add_cancel h, rfl, rfl⟩, fun h => ?_⟩
  exact ⟨_, exec_ret_underflow h, faultsWith_raiseFault _ _⟩

/-- Settles O37: the two depths of Push; the entry written is the one at the old depth. -/
theorem callPushesOrOverflows : Obligations.CallPushesOrOverflows := by
  intro s nnn
  refine ⟨fun h => ⟨_, exec_call_push nnn h, toNat_targetOf nnn, rfl, ?_, fun k hk => ?_, rfl⟩, fun h => ?_⟩
  · exact Vector.getElem_set_self ..
  · exact Vector.getElem_set_ne h _ (Ne.symm hk)
  · exact ⟨_, exec_call_overflow nnn h, faultsWith_raiseFault _ _⟩

/-- Settles O38: RET pops the entry CALL pushed, at the depth CALL left. -/
theorem retReturnsAfterTheCall : Obligations.RetReturnsAfterTheCall := by
  intro s t u w nnn hsp ht hstack hdepth hw
  rw [exec_call_push nnn hsp] at ht
  obtain rfl := Host.Outcome.next.inj ht
  have hu : u.sp.val = s.sp.val + 1 := congrArg Fin.val hdepth
  rw [exec_ret_pop (by omega)] at hw
  obtain rfl := Host.Outcome.next.inj hw
  refine ⟨?_, Fin.ext ?_⟩
  · simp [hstack, hu]
  · simp [hu]

/-- Settles O40: the sum of a 12-bit address and a byte fits in pc. -/
theorem jpV0GoesToItsTarget : Obligations.JpV0GoesToItsTarget := by
  intro s nnn
  refine ⟨_, exec_jpV0 nnn s, ?_, onlyPc_setPc s _⟩
  rw [State.setPc_pc, toNat_trunc16, toNat_targetOf]
  omega

end Sys2Proof.Machine
end

section
/-! The display (40_display.md): 00E0 and DXYN. -/

namespace Sys2Proof.Machine

theorem exec_cls (s : State) : exec .cls s = .next (s.setFb clearScreen).advance := rfl

/-- Settles O32: every pixel of the clear screen is 0. -/
theorem clsClearsTheScreen : Obligations.ClsClearsTheScreen := fun s =>
  ⟨_, exec_cls s, Framebuffer.pixel_clearScreen, pc_advance_eq_add _, rfl⟩

theorem exec_drw_inBounds (x y : Reg) {n : Nat} {s : State} (h : n = 0 ∨ s.i.toNat + n - 1 ≤ 0xFFF) :
    exec (.drw x y n) s =
      .next ((s.setFb (drawAt s x y n).fb).setReg 15 (collisionFlag (drawAt s x y n).collided)).advance :=
  congrArg Host.Outcome.next (if_pos ((State.dataInBounds_iff s n).2 (by omega)))

theorem exec_drw_fault (x y : Reg) {n : Nat} {s : State} (h : n > 0 ∧ s.i.toNat + n - 1 > 0xFFF) :
    exec (.drw x y n) s = .next (s.raiseFault .dataBounds) :=
  congrArg Host.Outcome.next (if_neg (mt (State.dataInBounds_iff s n).1 (by omega)))

/-! ### The plot in the terms of `SpriteCovers` -/

/-- The pixels the set bits of DXYN's sprite fall on. -/
def drawnBits (s : State) (x y : Reg) (n : Nat) : List (Fin 32 × Fin 64) :=
  Plot.spriteBits (s.reg x) (s.reg y) (fun r => s.memByte (s.dataAddress r)) n

theorem drawAt_eq_toggleAll (s : State) (x y : Reg) (n : Nat) :
    drawAt s x y n = Plot.toggleAll (drawnBits s x y n) ⟨s.fb, false⟩ := Plot.sprite_eq_toggleAll ..

theorem nodup_drawnBits (s : State) (x y : Reg) {n : Nat} (h : n ≤ 15) : (drawnBits s x y n).Nodup :=
  Plot.nodup_spriteBits _ _ _ _ (by omega)

theorem mem_drawnBits {s : State} {x y : Reg} {n : Nat} {py : Fin 32} {px : Fin 64} :
    (py, px) ∈ drawnBits s x y n ↔ SpriteCovers s x y n py px := by
  have hrow : ∀ r, rowOf (s.reg y) r = py ↔ py.val = ((s.reg y).toNat + r) % 32 := fun r => by
    rw [Fin.ext_iff, eq_comm]; rfl
  have hcol : ∀ c, columnOf (s.reg x) c = px ↔ px.val = ((s.reg x).toNat + c) % 64 := fun c => by
    rw [Fin.ext_iff, eq_comm]; rfl
  simp only [drawnBits, Plot.mem_spriteBits, SpriteCovers, hrow, hcol, State.dataAddress,
    and_comm (a := py.val = _)]

theorem pixel_drawAt_of_covers {s : State} {x y : Reg} {n : Nat} {py : Fin 32} {px : Fin 64} (hn : n ≤ 15)
    (h : SpriteCovers s x y n py px) : (drawAt s x y n).fb.pixel py px = !s.fb.pixel py px := by
  rw [drawAt_eq_toggleAll, Plot.pixel_toggleAll _ (nodup_drawnBits s x y hn), if_pos (mem_drawnBits.2 h)]

theorem pixel_drawAt_of_not_covers {s : State} {x y : Reg} {n : Nat} {py : Fin 32} {px : Fin 64} (hn : n ≤ 15)
    (h : ¬ SpriteCovers s x y n py px) : (drawAt s x y n).fb.pixel py px = s.fb.pixel py px := by
  rw [drawAt_eq_toggleAll, Plot.pixel_toggleAll _ (nodup_drawnBits s x y hn), if_neg (mt mem_drawnBits.1 h)]

theorem collided_drawAt_iff {s : State} {x y : Reg} {n : Nat} (hn : n ≤ 15) :
    (drawAt s x y n).collided = true ↔ ∃ py px, SpriteCovers s x y n py px ∧ s.fb.pixel py px = true := by
  rw [drawAt_eq_toggleAll, Plot.collided_toggleAll _ (nodup_drawnBits s x y hn)]
  simp [Prod.exists, mem_drawnBits]

/-! ### The obligations -/

/-- Settles O33: the plot toggles the pixels of the set bits, which are all different, and the flag is its collision. -/
theorem drwXorsTheSprite : Obligations.DrwXorsTheSprite := by
  intro s x y n hn
  refine ⟨fun h => ⟨_, exec_drw_fault x y h, faultsWith_raiseFault _ _⟩, fun h => ?_⟩
  refine ⟨_, exec_drw_inBounds x y h, fun py px hc => pixel_drawAt_of_covers hn hc,
    fun py px hc => pixel_drawAt_of_not_covers hn hc, fun hc => ?_, fun hc => ?_, fun k hk => ?_,
    pc_advance_eq_add _, rfl⟩
  · simp [(collided_drawAt_iff hn).2 hc, collisionFlag, boolByte]
  · have hclear : (drawAt s x y n).collided = false := by
      rw [← Bool.not_eq_true, collided_drawAt_iff hn]
      rintro ⟨py, px, hcov, hset⟩
      simp [hc py px hcov] at hset
    simp [hclear, collisionFlag, boolByte]
  · simp [hk]

/-- Settles O34: a sprite of no rows has no set bit, so it leaves the screen and the flag's collision as they were. -/
theorem drwOfNoRowsOnlyClearsVF : Obligations.DrwOfNoRowsOnlyClearsVF := by
  intro s x y
  have hplot : drawAt s x y 0 = ⟨s.fb, false⟩ := rfl
  refine ⟨_, exec_drw_inBounds x y (.inl rfl), ?_, fun k hk => ?_, pc_advance_eq_add _, ?_⟩
  · simp [hplot, collisionFlag, boolByte]
  · simp [hk]
  · rw [hplot]; rfl

/-- Settles O35: the first drawing sets the pixels it covers, and since neither I, memory nor the coordinates change,
the second covers the same pixels and clears them. -/
theorem drawingTwiceErases : Obligations.DrawingTwiceErases := by
  intro s t u x y n hn hbound hx hy hsome hclear ht hu
  obtain ⟨_, hdraw⟩ := drwXorsTheSprite s x y n hn
  obtain ⟨t', ht', on1, off1, _, flag1, regs1, _, frame1⟩ := hdraw (.inr hbound)
  obtain rfl : t' = t := Host.Outcome.next.inj (ht'.symm.trans ht)
  have hi : t'.i = s.i := by rw [frame1]
  have hmem : ∀ a, t'.memByte a = s.memByte a := fun a => by rw [frame1]; rfl
  have hcov : ∀ py px, SpriteCovers t' x y n py px ↔ SpriteCovers s x y n py px := fun py px => by
    simp only [SpriteCovers, hi, hmem, regs1 x hx, regs1 y hy]
  obtain ⟨_, hdraw⟩ := drwXorsTheSprite t' x y n hn
  obtain ⟨u', hu', on2, off2, flag2, _⟩ := hdraw (.inr (by rwa [hi]))
  obtain rfl : u' = u := Host.Outcome.next.inj (hu'.symm.trans hu)
  refine ⟨flag1 hclear, flag2 ?_, Framebuffer.ext_pixel fun py px => ?_⟩
  · obtain ⟨py, px, hc⟩ := hsome
    exact ⟨py, px, (hcov py px).2 hc, by rw [on1 py px hc, hclear py px hc]; rfl⟩
  · by_cases hc : SpriteCovers s x y n py px
    · rw [on2 py px ((hcov py px).2 hc), on1 py px hc, Bool.not_not]
    · rw [off2 py px (mt (hcov py px).1 hc), off1 py px hc]

end Sys2Proof.Machine
end

section
/-! What one instruction can do (R83, R201): the fault it takes, and without a fault what it may write. -/

namespace Sys2Proof.Machine

/-! ### The fault of an instruction -/

/-- The fault instruction `i` takes in `s`, if any: R201's conditions at execute. -/
def execFault (i : Instr) (s : State) : Option FaultCause :=
  match i with
  | .ret => if s.sp.val = 0 then some .stackUnderflow else none
  | .call _ => if s.sp.val = 16 then some .stackOverflow else none
  | .drw _ _ n => if n > 0 ∧ s.i.toNat + n - 1 > 0xFFF then some .dataBounds else none
  | .ldBVx _ => if s.i.toNat + 2 > 0xFFF then some .dataBounds else none
  | .ldMemVx x | .ldVxMem x => if s.i.toNat + x.val > 0xFFF then some .dataBounds else none
  | _ => none

theorem of_ite_some_eq_some {α : Type} {p : Prop} [Decidable p] {a b : α} (h : (if p then some a else none) = some b) :
    p ∧ a = b := by
  simpa using h

theorem not_of_ite_some_eq_none {α : Type} {p : Prop} [Decidable p] {a : α} (h : (if p then some a else none) = none) :
    ¬ p := by
  simpa using h

theorem exec_of_execFault {i : Instr} {s : State} {c : FaultCause} (h : execFault i s = some c) :
    exec i s = .next (s.raiseFault c) := by
  cases i with
  | ret =>
    obtain ⟨hsp, rfl⟩ := of_ite_some_eq_some h
    exact exec_ret_underflow hsp
  | call nnn =>
    obtain ⟨hsp, rfl⟩ := of_ite_some_eq_some h
    exact exec_call_overflow nnn hsp
  | drw x y n =>
    obtain ⟨hb, rfl⟩ := of_ite_some_eq_some h
    exact exec_drw_fault x y hb
  | ldBVx x =>
    obtain ⟨hb, rfl⟩ := of_ite_some_eq_some h
    exact exec_ldBVx_fault x hb
  | ldMemVx x =>
    obtain ⟨hb, rfl⟩ := of_ite_some_eq_some h
    exact exec_ldMemVx_fault hb
  | ldVxMem x =>
    obtain ⟨hb, rfl⟩ := of_ite_some_eq_some h
    exact exec_ldVxMem_fault hb
  | _ => cases h

theorem execFault_ne_none_cause {i : Instr} {s : State} {c : FaultCause} (h : execFault i s = some c) :
    c ≠ .none ∧ c ≠ .fetchBounds := by
  unfold execFault at h
  split at h
  case h_7 => cases h
  all_goals
    obtain ⟨_, rfl⟩ := of_ite_some_eq_some h
    decide

theorem execFault_of_mayFault {i : Instr} (h : mayFault i = false) (s : State) : execFault i s = none := by
  cases i with
  | ret | call | drw | ldBVx | ldMemVx | ldVxMem => cases h
  | _ => rfl

/-! ### The frame of an instruction -/

/-- The instructions whose rules write I (R24). -/
def writesIndex : Instr → Bool
  | .ldI _ | .addIVx _ | .ldFVx _ => true
  | _ => false

/-- The instruction whose rule writes DT (R30). -/
def writesDelay : Instr → Bool
  | .ldDtVx _ => true
  | _ => false

/-- The instruction whose rule writes ST (R31). -/
def writesSound : Instr → Bool
  | .ldStVx _ => true
  | _ => false

/-- The instructions whose rules write the framebuffer (R33). -/
def writesScreen : Instr → Bool
  | .cls | .drw _ _ _ => true
  | _ => false

/-- The instructions whose rules move the call stack (R29). -/
def writesStack : Instr → Bool
  | .ret | .call _ => true
  | _ => false

theorem exists_shiftSource_eq (s : State) (x y : Reg) : ∃ v, s.shiftSource x y = { s with v := v } := by
  unfold State.shiftSource
  split
  · exact ⟨_, rfl⟩
  · exact ⟨_, rfl⟩

/-- What an instruction that does not fault changes: the general registers, pc, and what its rule writes (R83). -/
theorem exec_frame {i : Instr} {s t : State} (h : exec i s = .next t) (hf : execFault i s = none) :
    t = { s with
      v := t.v
      pc := t.pc
      i := if writesIndex i then t.i else s.i
      dt := if writesDelay i then t.dt else s.dt
      st := if writesSound i then t.st else s.st
      fb := if writesScreen i then t.fb else s.fb
      mem := if storesMemory i then t.mem else s.mem
      stack := if writesStack i then t.stack else s.stack
      sp := if writesStack i then t.sp else s.sp } := by
  cases i with
  | ret =>
    rw [exec_ret_pop (by have := not_of_ite_some_eq_none hf; omega)] at h
    cases h; rfl
  | call nnn =>
    rw [exec_call_push nnn (by have := not_of_ite_some_eq_none hf; omega)] at h
    cases h; rfl
  | drw x y n =>
    rw [exec_drw_inBounds x y (by have := not_of_ite_some_eq_none hf; omega)] at h
    cases h; rfl
  | ldBVx x =>
    rw [exec_ldBVx_inBounds x (by have := not_of_ite_some_eq_none hf; omega), storeDigits_frame] at h
    cases h; rfl
  | ldMemVx x =>
    rw [exec_ldMemVx_inBounds (by have := not_of_ite_some_eq_none hf; omega), State.storeRegs_frame] at h
    cases h; rfl
  | ldVxMem x =>
    rw [exec_ldVxMem_inBounds (by have := not_of_ite_some_eq_none hf; omega), State.loadRegs_frame] at h
    cases h; rfl
  | shr x y =>
    obtain ⟨v, hv⟩ := exists_shiftSource_eq s x y
    rw [exec_shr, hv] at h
    cases h; rfl
  | shl x y =>
    obtain ⟨v, hv⟩ := exists_shiftSource_eq s x y
    rw [exec_shl, hv] at h
    cases h; rfl
  | ldVxK x =>
    cases hk : s.leastKey with
    | none => rw [exec_ldVxK_none x hk] at h; cases h; rfl
    | some k => rw [exec_ldVxK_some x hk] at h; cases h; rfl
  | _ => cases h; rfl

/-- The elements no instruction but a faulting one changes. -/
structure KeepsControl (s t : State) : Prop where
  run : t.run = s.run
  faultCause : t.faultCause = s.faultCause
  faultPc : t.faultPc = s.faultPc
  result : t.result = s.result

/-- Everything an instruction can do to the run state: take its fault, or leave run, record and result alone. -/
theorem exec_cases {i : Instr} {s t : State} (h : exec i s = .next t) :
    (∃ c, execFault i s = some c ∧ t = s.raiseFault c) ∨ (execFault i s = none ∧ KeepsControl s t) := by
  cases hf : execFault i s with
  | some c => exact .inl ⟨c, rfl, Host.Outcome.next.inj (h.symm.trans (exec_of_execFault hf))⟩
  | none =>
    have hframe := exec_frame h hf
    refine .inr ⟨rfl, ?_, ?_, ?_, ?_⟩ <;> rw [hframe]

/-- The elements no instruction changes. -/
structure KeepsFixed (s t : State) : Prop where
  opcode : t.opcode = s.opcode
  rom : t.rom = s.rom
  cfg : t.cfg = s.cfg
  keys : t.keys = s.keys
  rnd : t.rnd = s.rnd
  diag : t.diag = s.diag
  agenda : t.agenda = s.agenda
  calls : t.calls = s.calls

theorem exec_keepsFixed {i : Instr} {s t : State} (h : exec i s = .next t) : KeepsFixed s t := by
  cases hf : execFault i s with
  | some c =>
    obtain rfl := Host.Outcome.next.inj (h.symm.trans (exec_of_execFault hf))
    constructor <;> rfl
  | none =>
    have hframe := exec_frame h hf
    constructor <;> rw [hframe]

end Sys2Proof.Machine
end

section
/-! What every instruction leaves unchanged, what its inputs reach, and the pc it leaves. -/

namespace Sys2Proof.Machine

/-! ### Registers and the other elements -/

/-- Settles O26: a fault changes no register, and without one each rule's register writes are those of `mayWriteReg`. -/
theorem registersChangeOnlyByTheirWriters : Obligations.RegistersChangeOnlyByTheirWriters := by
  intro i s t k h hk
  rcases exec_cases h with ⟨c, _, rfl⟩ | ⟨hf, _⟩
  · rfl
  cases i with
  | ldImm x | addImm x | ldReg x | orReg x | andReg x | xorReg x | rnd x | ldVxDt x =>
    all_goals
      have hx : k ≠ x := by simpa [mayWriteReg] using hk
      cases h
      simp [hx]
  | ldVxK x =>
    have hx : k ≠ x := by simpa [mayWriteReg] using hk
    cases hkey : s.leastKey with
    | none => rw [exec_ldVxK_none x hkey] at h; cases h; rfl
    | some j => rw [exec_ldVxK_some x hkey] at h; cases h; simp [hx]
  | addReg x y =>
    have hx : k ≠ x ∧ k ≠ 15 := by simpa [mayWriteReg] using hk
    rw [exec_addReg] at h
    cases h
    simp [hx]
  | sub x y =>
    have hx : k ≠ x ∧ k ≠ 15 := by simpa [mayWriteReg] using hk
    rw [exec_sub, subInto_eq_setReg] at h
    cases h
    simp [hx]
  | subn x y =>
    have hx : k ≠ x ∧ k ≠ 15 := by simpa [mayWriteReg] using hk
    rw [exec_subn, subInto_eq_setReg] at h
    cases h
    simp [hx]
  | shr x y =>
    have hx : k ≠ x ∧ k ≠ 15 := by simpa [mayWriteReg] using hk
    rw [exec_shr, State.shiftRight] at h
    cases h
    simp [hx, reg_shiftSource_of_ne]
  | shl x y =>
    have hx : k ≠ x ∧ k ≠ 15 := by simpa [mayWriteReg] using hk
    rw [exec_shl, State.shiftLeft] at h
    cases h
    simp [hx, reg_shiftSource_of_ne]
  | drw x y n =>
    have hx : k ≠ 15 := by simpa [mayWriteReg] using hk
    rw [exec_drw_inBounds x y (by have := not_of_ite_some_eq_none hf; omega)] at h
    cases h
    simp [hx]
  | ldVxMem x =>
    rw [exec_ldVxMem_inBounds (by have := not_of_ite_some_eq_none hf; omega)] at h
    cases h
    have hx : x < k := by simpa [mayWriteReg] using hk
    rw [State.reg_advance, State.reg_loadRegs s _ (by omega), if_neg (by have : x.val < k.val := hx; omega)]
  | ldMemVx x =>
    rw [exec_ldMemVx_inBounds (by have := not_of_ite_some_eq_none hf; omega), State.storeRegs_frame] at h
    cases h; rfl
  | ret =>
    rw [exec_ret_pop (by have := not_of_ite_some_eq_none hf; omega)] at h
    cases h; rfl
  | call nnn =>
    rw [exec_call_push nnn (by have := not_of_ite_some_eq_none hf; omega)] at h
    cases h; rfl
  | ldBVx x =>
    rw [exec_ldBVx_inBounds x (by have := not_of_ite_some_eq_none hf; omega)] at h
    cases h; rfl
  | _ => cases h; rfl

theorem exists_of_writesIndex {i : Instr} (h : writesIndex i = true) :
    (∃ nnn, i = .ldI nnn) ∨ (∃ x, i = .addIVx x) ∨ (∃ x, i = .ldFVx x) := by
  cases i <;> simp_all [writesIndex]

theorem exists_of_writesDelay {i : Instr} (h : writesDelay i = true) : ∃ x, i = .ldDtVx x := by
  cases i <;> simp_all [writesDelay]

theorem exists_of_writesSound {i : Instr} (h : writesSound i = true) : ∃ x, i = .ldStVx x := by
  cases i <;> simp_all [writesSound]

theorem exists_of_writesScreen {i : Instr} (h : writesScreen i = true) : i = .cls ∨ ∃ x y n, i = .drw x y n := by
  cases i <;> simp_all [writesScreen]

theorem exists_of_writesStack {i : Instr} (h : writesStack i = true) : i = .ret ∨ ∃ nnn, i = .call nnn := by
  cases i <;> simp_all [writesStack]

/-- An element that keeps its value unless a rule writes it has been written when it differs. -/
theorem written_of_ne {α : Type} {w : Bool} {a b : α} (h : a = if w then a else b) (hne : a ≠ b) : w = true := by
  cases w with
  | true => rfl
  | false => exact absurd h hne

/-- The elements of `exec_frame`, faulting or not: each keeps its value unless the instruction's rule writes it. -/
structure WritesOnlyIts (i : Instr) (s t : State) : Prop where
  index : t.i = if writesIndex i then t.i else s.i
  delay : t.dt = if writesDelay i then t.dt else s.dt
  sound : t.st = if writesSound i then t.st else s.st
  screen : t.fb = if writesScreen i then t.fb else s.fb
  memory : t.mem = if storesMemory i then t.mem else s.mem
  stack : t.stack = if writesStack i then t.stack else s.stack
  depth : t.sp = if writesStack i then t.sp else s.sp

theorem exec_writesOnlyIts {i : Instr} {s t : State} (h : exec i s = .next t) : WritesOnlyIts i s t := by
  cases hf : execFault i s with
  | some c =>
    obtain rfl := Host.Outcome.next.inj (h.symm.trans (exec_of_execFault hf))
    constructor <;> exact (ite_self _).symm
  | none =>
    have hframe := exec_frame h hf
    constructor
    · exact congrArg (fun u => u.i) hframe
    · exact congrArg (fun u => u.dt) hframe
    · exact congrArg (fun u => u.st) hframe
    · exact congrArg (fun u => u.fb) hframe
    · exact congrArg (fun u => u.mem) hframe
    · exact congrArg (fun u => u.stack) hframe
    · exact congrArg (fun u => u.sp) hframe

/-- Settles O27: an element that differs was written, and `exec_frame` says by which instructions. -/
theorem stateChangesOnlyByItsWriters : Obligations.StateChangesOnlyByItsWriters := by
  intro i s t h
  have hw := exec_writesOnlyIts h
  have hk := exec_keepsFixed h
  refine ⟨fun hm a => ?_, fun hne => exists_of_writesIndex (written_of_ne hw.index hne),
    fun hne => exists_of_writesDelay (written_of_ne hw.delay hne),
    fun hne => exists_of_writesSound (written_of_ne hw.sound hne),
    fun hne => exists_of_writesScreen (written_of_ne hw.screen hne),
    fun hne => exists_of_writesStack ?_, fun hm => ?_,
    hk.opcode, hk.rom, hk.cfg, hk.diag, hk.agenda, hk.calls⟩
  · have hmem : t.mem = s.mem := by simpa [hm] using hw.memory
    simp only [State.memByte, hmem, hk.cfg]
  · rcases hne with hne | hne
    · exact written_of_ne hw.depth hne
    · exact written_of_ne hw.stack hne
  · rcases exec_cases h with ⟨c, hf, _⟩ | ⟨_, hc⟩
    · rw [execFault_of_mayFault hm s] at hf
      cases hf
    · exact ⟨hc.run, hc.faultCause, hc.faultPc, hc.result⟩

/-! ### The inputs -/

theorem storeRegs_latch (s : State) (inp : StepInput) (n : Nat) :
    (s.latch inp).storeRegs n = (s.storeRegs n).latch inp := by
  induction n with
  | zero => rfl
  | succ n ih => rw [State.storeRegs_succ, State.storeRegs_succ, ih]; rfl

theorem loadRegs_latch (s : State) (inp : StepInput) (n : Nat) :
    (s.latch inp).loadRegs n = (s.loadRegs n).latch inp := by
  induction n with
  | zero => rfl
  | succ n ih => rw [State.loadRegs_succ, State.loadRegs_succ, ih]; rfl

theorem shiftSource_latch (s : State) (inp : StepInput) (x y : Reg) :
    (s.latch inp).shiftSource x y = (s.shiftSource x y).latch inp := by
  unfold State.shiftSource
  rw [apply_ite (State.latch · inp)]
  rfl

/-- Inputs that agree with those of `s` wherever instruction `i` reads them change nothing it does (R225, R226). -/
theorem exec_latch {i : Instr} {s t : State} {inp : StepInput} (h : exec i s = .next t)
    (hkeys : readsKeys i = true → inp.keys = s.keys) (hrnd : ∀ x nn, i = .rnd x nn → inp.rnd = s.rnd) :
    exec i (s.latch inp) = .next (t.latch inp) := by
  rcases exec_cases h with ⟨c, hf, rfl⟩ | ⟨hf, _⟩
  · exact exec_of_execFault hf
  obtain ⟨k, r⟩ := inp
  cases i with
  | skp | sknp =>
    all_goals
      obtain rfl : k = s.keys := hkeys rfl
      cases h; rfl
  | ldVxK x =>
    obtain rfl : k = s.keys := hkeys rfl
    cases hkey : s.leastKey with
    | none => rw [exec_ldVxK_none x hkey] at h; cases h; exact exec_ldVxK_none x hkey
    | some j => rw [exec_ldVxK_some x hkey] at h; cases h; exact exec_ldVxK_some x hkey
  | rnd x nn =>
    obtain rfl : r = s.rnd := hrnd x nn rfl
    cases h; rfl
  | shr x y => cases h; rw [exec_shr, shiftSource_latch]; rfl
  | shl x y => cases h; rw [exec_shl, shiftSource_latch]; rfl
  | ret =>
    have hsp : 0 < s.sp.val := by have := not_of_ite_some_eq_none hf; omega
    rw [exec_ret_pop hsp] at h
    cases h; exact exec_ret_pop (s := s.latch ⟨k, r⟩) hsp
  | call nnn =>
    have hsp : s.sp.val < 16 := by have := not_of_ite_some_eq_none hf; omega
    rw [exec_call_push nnn hsp] at h
    cases h; exact exec_call_push nnn (s := s.latch ⟨k, r⟩) hsp
  | drw x y n =>
    have hb : n = 0 ∨ s.i.toNat + n - 1 ≤ 0xFFF := by have := not_of_ite_some_eq_none hf; omega
    rw [exec_drw_inBounds x y hb] at h
    cases h; exact exec_drw_inBounds x y hb
  | ldBVx x =>
    have hb : s.i.toNat + 2 ≤ 0xFFF := by have := not_of_ite_some_eq_none hf; omega
    rw [exec_ldBVx_inBounds x hb] at h
    cases h; exact exec_ldBVx_inBounds x hb
  | ldMemVx x =>
    have hb : s.i.toNat + x.val ≤ 0xFFF := by have := not_of_ite_some_eq_none hf; omega
    rw [exec_ldMemVx_inBounds hb] at h
    cases h; rw [exec_ldMemVx_inBounds (s := s.latch ⟨k, r⟩) hb, storeRegs_latch]; rfl
  | ldVxMem x =>
    have hb : s.i.toNat + x.val ≤ 0xFFF := by have := not_of_ite_some_eq_none hf; omega
    rw [exec_ldVxMem_inBounds hb] at h
    cases h; rw [exec_ldVxMem_inBounds (s := s.latch ⟨k, r⟩) hb, loadRegs_latch]; rfl
  | _ => cases h; rfl

/-- Settles O29: each clause is `exec_latch` with the other input left as it is. -/
theorem inputsReachOnlyTheirReaders : Obligations.InputsReachOnlyTheirReaders := by
  intro i s t h
  have hk := exec_keepsFixed h
  refine ⟨fun hkeys k => ?_, fun hrnd r => ?_⟩
  · have ht : t.latch ⟨k, s.rnd⟩ = { t with keys := k } := by rw [← hk.rnd]; rfl
    exact ht ▸ exec_latch (inp := ⟨k, s.rnd⟩) h (fun hr => by simp [hkeys] at hr) (fun _ _ _ => rfl)
  · have ht : t.latch ⟨s.keys, r⟩ = { t with rnd := r } := by rw [← hk.keys]; rfl
    exact ht ▸ exec_latch (inp := ⟨s.keys, r⟩) h (fun _ => rfl) (fun x nn hi => absurd hi (hrnd x nn))

/-! ### The program counter -/

/-- R82's successors of a pc that was fetched from do not wrap. -/
theorem toNat_pc_advance {s u : State} (hu : u.pc = s.pc) (h : s.pc.toNat ≤ 0xFFE) :
    u.advance.pc.toNat = s.pc.toNat + 2 := by
  rw [State.pc_advance, toNat_trunc16, hu]
  omega

theorem toNat_pc_skipIf {s : State} (c : Bool) (h : s.pc.toNat ≤ 0xFFE) :
    (s.skipIf c).pc.toNat = s.pc.toNat + 2 ∨ (s.skipIf c).pc.toNat = s.pc.toNat + 4 := by
  rw [State.skipIf_eq, State.setPc_pc, toNat_trunc16]
  cases c
  · exact .inl (by simp; omega)
  · exact .inr (by simp; omega)

theorem leastKey_eq_none_iff_keys (s : State) : s.leastKey = none ↔ s.keys = 0 := by
  rw [leastKey_eq_none_iff]
  exact ⟨fun h => BitVec.eq_of_getLsbD_eq fun k hk => by simpa using h k hk, fun h k _ => by simp [h]⟩

/-- Settles O28: jumps write pc with their target, skips and the rest with a successor, and a fault leaves it. -/
theorem pcAfterEveryInstruction : Obligations.PcAfterEveryInstruction := by
  intro i s t hpc h
  cases i with
  | jp nnn => cases h; exact toNat_targetOf nnn
  | jpV0 nnn =>
    obtain ⟨t', ht', hpc', _⟩ := jpV0GoesToItsTarget s nnn
    cases ht'.symm.trans h
    exact hpc'
  | call nnn =>
    dsimp only
    split
    case isTrue hsp => rw [exec_call_push nnn hsp] at h; cases h; exact toNat_targetOf nnn
    case isFalse hsp => rw [exec_call_overflow nnn (by omega)] at h; cases h; rfl
  | ret =>
    dsimp only
    split
    case isTrue hsp => rw [exec_ret_pop hsp] at h; cases h; rfl
    case isFalse hsp => rw [exec_ret_underflow (by omega)] at h; cases h; rfl
  | seImm | sneImm | seReg | sneReg | skp | sknp => all_goals cases h; exact toNat_pc_skipIf _ hpc
  | ldVxK x =>
    cases hkey : s.leastKey with
    | none =>
      rw [exec_ldVxK_none x hkey] at h
      cases h
      exact (if_pos ((leastKey_eq_none_iff_keys s).1 hkey)).mpr rfl
    | some k =>
      have hkeys : s.keys ≠ 0 := fun h0 => by simp [(leastKey_eq_none_iff_keys s).2 h0] at hkey
      rw [exec_ldVxK_some x hkey] at h
      cases h
      exact (if_neg hkeys).mpr (toNat_pc_advance rfl hpc)
  | drw x y n =>
    dsimp only
    split
    case isTrue hb => rw [exec_drw_fault x y hb] at h; cases h; rfl
    case isFalse hb => rw [exec_drw_inBounds x y (by omega)] at h; cases h; exact toNat_pc_advance rfl hpc
  | ldBVx x =>
    dsimp only
    split
    case isTrue hb => rw [exec_ldBVx_fault x hb] at h; cases h; rfl
    case isFalse hb => rw [exec_ldBVx_inBounds x (by omega)] at h; cases h; exact toNat_pc_advance rfl hpc
  | ldMemVx x =>
    dsimp only
    split
    case isTrue hb => rw [exec_ldMemVx_fault hb] at h; cases h; rfl
    case isFalse hb =>
      rw [exec_ldMemVx_inBounds (by omega)] at h
      cases h
      exact toNat_pc_advance (storeRegs_pc s _) hpc
  | ldVxMem x =>
    dsimp only
    split
    case isTrue hb => rw [exec_ldVxMem_fault hb] at h; cases h; rfl
    case isFalse hb =>
      rw [exec_ldVxMem_inBounds (by omega)] at h
      cases h
      exact toNat_pc_advance (loadRegs_pc s _) hpc
  | shr x y | shl x y => all_goals cases h; exact toNat_pc_advance (shiftSource_pc s x y) hpc
  | _ => cases h; exact toNat_pc_advance rfl hpc

end Sys2Proof.Machine
end

section
/-! The step of the machine, operation by operation (60_exceptions.md, 70_reset_and_hazards.md). -/

namespace Sys2Proof.Machine

/-! ### Which operation a step performs -/

theorem step_of_step {s : State} {inp : StepInput} (h : s.nextOp = .step inp) :
    step s = (s.takeOp.latch inp).stepOp := by simp [step, perform, h]

theorem step_of_tickTimers {s : State} (h : s.nextOp = .tickTimers) : step s = .next s.takeOp.tickTimers := by
  simp [step, perform, h]

theorem step_of_load {s : State} {bytes : List Byte} (h : s.nextOp = .load bytes) :
    step s = .next (s.takeOp.loadRom bytes) := by simp [step, perform, h]

theorem step_of_restart {s : State} (h : s.nextOp = .restart) : step s = .next s.takeOp.restart := by
  simp [step, perform, h]

/-- Settles O13: Step answers in each of its phases, the other operations at once. -/
theorem everyStepAnswers : Obligations.EveryStepAnswers := by
  intro s
  cases hop : s.nextOp with
  | tickTimers => exact ⟨_, step_of_tickTimers hop⟩
  | load bytes => exact ⟨_, step_of_load hop⟩
  | restart => exact ⟨_, step_of_restart hop⟩
  | step inp =>
    rw [step_of_step hop]
    generalize s.takeOp.latch inp = u
    cases hr : u.run with
    | uninitialized => exact ⟨_, u.stepOp_uninitialized hr⟩
    | halted => exact ⟨_, u.stepOp_halted hr⟩
    | loaded | running =>
      all_goals
        rw [u.stepOp_accepted (by simp [hr])]
        generalize u.setRun .running = w
        cases hw : w.fetchWord with
        | none => exact ⟨_, w.cycle_fetchBounds hw⟩
        | some op =>
          cases hd : decodeWord op with
          | none => exact ⟨_, w.cycle_unmapped hw hd⟩
          | some i => rw [w.cycle_mapped hw hd]; exact exec_next i _

/-! ### The Step operation -/

/-- Settles O10: the three cases of R214. -/
theorem stepAcceptance : Obligations.StepAcceptance := by
  intro s inp hop
  rw [step_of_step hop]
  refine ⟨fun h => ?_, fun h => ?_, fun h => ?_⟩
  · exact ⟨_, State.stepOp_uninitialized _ h, rfl, rfl, rfl, rfl⟩
  · exact ⟨_, State.stepOp_halted _ h, rfl, rfl, rfl, rfl⟩
  · exact State.stepOp_accepted _ h

/-- The state in which an accepted Step runs its cycle. -/
def State.started (s : State) (inp : StepInput) : State := (s.takeOp.latch inp).setRun .running

theorem step_accepted {s : State} {inp : StepInput} (hop : s.nextOp = .step inp) (h : s.accepts) :
    step s = (s.started inp).cycle := by
  rw [step_of_step hop]
  exact State.stepOp_accepted _ h

theorem decodeWord_of_decode {hi lo : Byte} {i : Instr} (h : decode [hi, lo] = .ok (i, [])) :
    decodeWord (wordOfBytes hi lo) = some i := by
  cases hd : decodeWord (wordOfBytes hi lo) with
  | none => simp [decode, hd] at h
  | some j => simp_all [decode]

/-- Settles O7: the fetch answers, and the decoder's answer is the instruction executed. -/
theorem stepRunsDecodedInstruction : Obligations.StepRunsDecodedInstruction := by
  intro s inp i hop hacc hpc hdec
  have hw := (State.fetchWord_eq_some s).2 ⟨by omega, rfl⟩
  rw [step_accepted hop hacc, State.cycle_mapped (s.started inp) hw (decodeWord_of_decode hdec)]
  rfl

/-- Settles O8: the fetch answers, the decoder does not, and pc advances. -/
theorem unmappedWordIsNoOp : Obligations.UnmappedWordIsNoOp := by
  intro s inp op hop hacc hpc hop' hdec
  have hw := (State.fetchWord_eq_some s).2 ⟨by omega, hop'⟩
  rw [step_accepted hop hacc, State.cycle_unmapped (s.started inp) hw hdec, State.runUnmapped, advance_eq_setPc_add]
  rfl

/-- The opcode register after a fetch that answered holds the word fetched, whatever ran (R32). -/
theorem opcode_cycle {s t : State} {op : Word} (hw : s.fetchWord = some op) (h : s.cycle = .next t) :
    t.opcode = op := by
  cases hd : decodeWord op with
  | none =>
    rw [State.cycle_unmapped s hw hd] at h
    cases h; rfl
  | some i =>
    rw [State.cycle_mapped s hw hd] at h
    exact (exec_keepsFixed h).opcode

/-- Settles O9: the two answers of the fetch. -/
theorem fetchChecksBounds : Obligations.FetchChecksBounds := by
  intro s inp hop hacc
  refine ⟨fun h => ?_, fun h => ?_⟩
  · rw [step_accepted hop hacc, State.cycle_fetchBounds (s.started inp) ((State.fetchWord_eq_none s).2 h)]
    rfl
  · have hw := (State.fetchWord_eq_some s).2 ⟨h, rfl⟩
    obtain ⟨t, ht⟩ := everyStepAnswers s
    refine ⟨t, ht, ?_⟩
    rw [step_accepted hop hacc] at ht
    rw [opcode_cycle (s := s.started inp) hw ht, toNat_wordOfBytes]

/-! ### The fault of a Step -/

/-- The fault an accepted Step takes in `s`, if any: at fetch, or of the instruction fetched. -/
def stepFault (s : State) : Option FaultCause :=
  match s.fetchWord with
  | none => some .fetchBounds
  | some op => (decodeWord op).bind fun i => execFault i s

/-- Everything an accepted Step can do to the run state and the record: take its fault in the state it started from,
the opcode register apart, or leave the core running. -/
theorem accepted_cases {s t : State} {inp : StepInput} (hop : s.nextOp = .step inp) (hacc : s.accepts)
    (h : step s = .next t) :
    (∃ c, stepFault s = some c ∧ t = ((s.started inp).setOpcode t.opcode).raiseFault c ∧
      (c = .fetchBounds → t.opcode = s.opcode) ∧
      (c ≠ .fetchBounds → t.opcode = wordOfBytes (s.memByte s.pc.toNat) (s.memByte (s.pc.toNat + 1)))) ∨
    (stepFault s = none ∧ t.run = .running ∧ (t.result = .ok ∨ t.result = .unmapped)) := by
  rw [step_accepted hop hacc] at h
  cases hw : s.fetchWord with
  | none =>
    rw [State.cycle_fetchBounds (s.started inp) hw] at h
    cases h
    exact .inl ⟨.fetchBounds, by simp [stepFault, hw], rfl, fun _ => rfl, fun hc => absurd rfl hc⟩
  | some op =>
    have hopcode := opcode_cycle (s := s.started inp) hw h
    cases hd : decodeWord op with
    | none =>
      rw [State.cycle_unmapped (s.started inp) hw hd] at h
      cases h
      exact .inr ⟨by simp [stepFault, hw, hd], rfl, .inr rfl⟩
    | some i =>
      have hfault : stepFault s = execFault i s := by simp [stepFault, hw, hd]
      rw [State.cycle_mapped (s.started inp) hw hd] at h
      rcases exec_cases h with ⟨c, hf, rfl⟩ | ⟨hf, hkeeps⟩
      · refine .inl ⟨c, hfault.trans hf, rfl, fun hc => absurd hc (execFault_ne_none_cause hf).2, fun _ => ?_⟩
        exact hopcode.trans ((State.fetchWord_eq_some s).1 hw).2
      · exact .inr ⟨hfault.trans hf, hkeeps.run, .inl hkeeps.result⟩

/-- A Step that reports a fault was accepted. -/
theorem accepts_of_fault {s t : State} {inp : StepInput} {c : FaultCause} (hop : s.nextOp = .step inp)
    (h : step s = .next t) (hc : t.result = .fault c) : s.accepts := by
  rw [step_of_step hop] at h
  rcases State.stepOp_cases _ h with ⟨_, rfl⟩ | ⟨_, rfl⟩ | ⟨hacc, _⟩
  · cases hc
  · cases hc
  · exact hacc

theorem stepFault_ne_none_cause {s : State} {c : FaultCause} (h : stepFault s = some c) : c ≠ .none := by
  unfold stepFault at h
  split at h
  · cases h; decide
  · obtain ⟨i, _, hi⟩ := Option.bind_eq_some_iff.1 h
    exact (execFault_ne_none_cause hi).1

/-- An accepted Step reports exactly the fault of `stepFault`. -/
theorem result_eq_fault_iff {s t : State} {inp : StepInput} (hop : s.nextOp = .step inp) (hacc : s.accepts)
    (h : step s = .next t) (c : FaultCause) : t.result = .fault c ↔ stepFault s = some c := by
  rcases accepted_cases hop hacc h with ⟨d, hd, ht, _⟩ | ⟨hn, _, hr⟩
  · have hres : t.result = .fault d := by rw [ht]; rfl
    simp [hd, hres]
  · rcases hr with hr | hr <;> simp [hn, hr]

/-- Settles O14: a fault is taken in the state the Step started from, in which only the opcode register may already
have changed. -/
theorem faultsArePrecise : Obligations.FaultsArePrecise := by
  intro s t inp c hop h hc
  have hacc := accepts_of_fault hop h hc
  rcases accepted_cases hop hacc h with ⟨d, hd, ht, hfetch, hexec⟩ | ⟨hn, _, hr⟩
  · have hdc : d = c := by
      rw [ht] at hc
      exact OpResult.fault.inj hc
    subst hdc
    exact ⟨hacc, stepFault_ne_none_cause hd, by rw [ht]; rfl, hfetch, hexec⟩
  · rw [(result_eq_fault_iff hop hacc h c).1 hc] at hn
    cases hn

/-! ### The conditions of R201 -/

theorem stepFault_eq_fetchBounds_iff (s : State) : stepFault s = some .fetchBounds ↔ s.pc.toNat + 1 > 0xFFF := by
  rw [gt_iff_lt, ← State.fetchWord_eq_none]
  unfold stepFault
  split
  case h_1 hw => simp [hw]
  case h_2 op hw =>
    simp only [hw, reduceCtorEq, iff_false, Option.bind_eq_some_iff, not_exists, not_and]
    exact fun i _ hi => (execFault_ne_none_cause hi).2 rfl

theorem stepFault_eq_some_iff {s : State} {c : FaultCause} (hc : c ≠ .fetchBounds) :
    stepFault s = some c ↔ ∃ i, s.fetchWord.bind decodeWord = some i ∧ execFault i s = some c := by
  unfold stepFault
  split
  case h_1 hw => simpa [hw] using Ne.symm hc
  case h_2 op hw => simp [hw, Option.bind_eq_some_iff]

theorem faultCondition_iff (s : State) (c : FaultCause) : FaultCondition s c ↔ stepFault s = some c := by
  cases c with
  | none => exact ⟨False.elim, fun h => stepFault_ne_none_cause h rfl⟩
  | fetchBounds => exact (stepFault_eq_fetchBounds_iff s).symm
  | stackUnderflow =>
    rw [stepFault_eq_some_iff (by decide)]
    refine ⟨fun ⟨hi, hsp⟩ => ⟨_, hi, if_pos hsp⟩, fun ⟨i, hi, hf⟩ => ?_⟩
    cases i with
    | ret => exact ⟨hi, (of_ite_some_eq_some hf).1⟩
    | call | drw | ldBVx | ldMemVx | ldVxMem => cases (of_ite_some_eq_some hf).2
    | _ => cases hf
  | stackOverflow =>
    rw [stepFault_eq_some_iff (by decide)]
    refine ⟨fun ⟨nnn, hi, hsp⟩ => ⟨_, hi, if_pos hsp⟩, fun ⟨i, hi, hf⟩ => ?_⟩
    cases i with
    | call nnn => exact ⟨nnn, hi, (of_ite_some_eq_some hf).1⟩
    | ret | drw | ldBVx | ldMemVx | ldVxMem => cases (of_ite_some_eq_some hf).2
    | _ => cases hf
  | dataBounds =>
    rw [stepFault_eq_some_iff (by decide)]
    constructor
    · rintro (⟨x, y, n, hi, hb⟩ | ⟨x, hi, hb⟩ | ⟨x, hi, hb⟩ | ⟨x, hi, hb⟩)
      all_goals exact ⟨_, hi, if_pos hb⟩
    · rintro ⟨i, hi, hf⟩
      cases i with
      | drw x y n => exact .inl ⟨x, y, n, hi, (of_ite_some_eq_some hf).1⟩
      | ldBVx x => exact .inr (.inl ⟨x, hi, (of_ite_some_eq_some hf).1⟩)
      | ldMemVx x => exact .inr (.inr (.inl ⟨x, hi, (of_ite_some_eq_some hf).1⟩))
      | ldVxMem x => exact .inr (.inr (.inr ⟨x, hi, (of_ite_some_eq_some hf).1⟩))
      | ret | call => cases (of_ite_some_eq_some hf).2
      | _ => cases hf

/-- Settles O15: an accepted Step reports the fault whose condition holds, and a reported fault is precise. -/
theorem faultConditionsAreExact : Obligations.FaultConditionsAreExact := by
  refine ⟨⟨rfl, rfl, rfl, rfl, rfl⟩, fun s t inp hop hacc h c => ⟨?_, fun hc => ?_⟩⟩
  · rw [faultCondition_iff]
    exact result_eq_fault_iff hop hacc h c
  · obtain ⟨_, _, harch, _⟩ := faultsArePrecise s t inp c hop h hc
    exact ⟨by rw [harch], by rw [harch], by rw [harch]⟩

end Sys2Proof.Machine
end

section
/-! Load, Restart, TickTimers, and the run states (60_exceptions.md, 70_reset_and_hazards.md). -/

namespace Sys2Proof.Machine

/-! ### The reset -/

/-- Memory after a reset, byte by byte (R242). -/
theorem read_resetMemory (font : Font) (bytes : List Byte) (a : Nat) :
    Memory.read font (Memory.writeBytes font Config.progBase bytes []) a =
      if 0x050 ≤ a ∧ a ≤ 0x09F then (font[a - 0x050]?).getD 0
      else if 0x200 ≤ a ∧ a < 0x200 + bytes.length then (bytes[a - 0x200]?).getD 0
      else 0 := by
  rw [Memory.read_writeBytes, Memory.read_nil, show Config.progBase = 0x200 from rfl]
  by_cases hfont : 0x050 ≤ a ∧ a ≤ 0x09F
  · obtain ⟨h1, h2⟩ := hfont
    rw [if_neg (show ¬ 0x200 ≤ a by omega), if_pos ⟨h1, h2⟩, Memory.resetByte_font h1 h2,
      Vector.getElem?_eq_getElem (by omega)]
    rfl
  · rw [if_neg hfont, Memory.resetByte_other (by omega)]
    by_cases hrom : 0x200 ≤ a ∧ a < 0x200 + bytes.length
    · rw [if_pos hrom, if_pos hrom.1]
    · rw [if_neg hrom]
      by_cases hlow : 0x200 ≤ a
      · rw [if_pos hlow, List.getElem?_eq_none (by omega)]
        rfl
      · rw [if_neg hlow]

/-- A reset leaves every element as R241 says, once its ROM is the one retained. -/
theorem afterReset_resetFrom (s : State) : AfterReset s.rom ((s.resetFrom s.rom).answer .ok) where
  regs k := by simp [State.reg, State.resetFrom, State.answer]
  index := rfl
  pc := rfl
  stack k := by simp [State.resetFrom]
  sp := rfl
  timers := ⟨rfl, rfl⟩
  opcode := rfl
  memory a _ := read_resetMemory s.cfg.font s.rom a
  screen := Framebuffer.pixel_clearScreen
  run := rfl
  record := ⟨rfl, rfl⟩
  rom := rfl

/-- A reset depends on nothing but the configuration and the ROM. -/
theorem toArch_resetFrom_congr {s t : State} (hcfg : s.cfg = t.cfg) (hrom : s.rom = t.rom) :
    (s.resetFrom s.rom).toArch = (t.resetFrom t.rom).toArch := by
  simp only [State.resetFrom, hcfg, hrom]

/-! ### The operations other than Step, case by case -/

/-- The state Load resets: the call taken, the ROM retained (R240). -/
def State.withRom (s : State) (bytes : List Byte) : State := { s with rom := bytes }

theorem loadRom_fits {s : State} {bytes : List Byte} (h : bytes.length ≤ 3584) :
    s.loadRom bytes = ((s.withRom bytes).resetFrom (s.withRom bytes).rom).answer .ok :=
  if_neg (Nat.not_lt.2 h)

theorem loadRom_tooLarge {s : State} {bytes : List Byte} (h : bytes.length > 3584) :
    s.loadRom bytes = s.answer .loadTooLarge := if_pos h

theorem restart_uninitialized {s : State} (h : s.run = .uninitialized) :
    s.restart = s.answer .rejectedNotLoaded := by simp [State.restart, h]

theorem restart_loaded {s : State} (h : s.run ≠ .uninitialized) : s.restart = (s.resetFrom s.rom).answer .ok := by
  unfold State.restart
  split
  case h_1 hr => exact absurd hr h
  all_goals rfl

theorem tickTimers_uninitialized {s : State} (h : s.run = .uninitialized) :
    s.tickTimers = s.answer .rejectedNotLoaded := by simp [State.tickTimers, h]

theorem tickTimers_halted {s : State} (h : s.run = .halted) : s.tickTimers = s.answer .rejectedHalted := by
  simp [State.tickTimers, h]

theorem tickTimers_accepted {s : State} (h : s.accepts) :
    s.tickTimers = ((s.setDt (State.countDown s.dt)).setSt (State.countDown s.st)).answer .ok := by
  rcases h with h | h <;> simp [State.tickTimers, h]

theorem step_load_fits {s : State} {bytes : List Byte} (hop : s.nextOp = .load bytes) (h : bytes.length ≤ 3584) :
    step s = .next (((s.takeOp.withRom bytes).resetFrom (s.takeOp.withRom bytes).rom).answer .ok) := by
  rw [step_of_load hop, loadRom_fits h]

theorem step_restart_loaded {s : State} (hop : s.nextOp = .restart) (h : s.run ≠ .uninitialized) :
    step s = .next ((s.takeOp.resetFrom s.takeOp.rom).answer .ok) := by
  rw [step_of_restart hop, restart_loaded (s := s.takeOp) h]

/-! ### The obligations -/

/-- Settles O16: the reset of a ROM that fits, or nothing. -/
theorem loadResetsOrChangesNothing : Obligations.LoadResetsOrChangesNothing := by
  intro s bytes hop
  refine ⟨fun h => ⟨_, step_load_fits hop h, afterReset_resetFrom (s.takeOp.withRom bytes), rfl, rfl⟩, fun h => ?_⟩
  rw [step_of_load hop, loadRom_tooLarge h]
  rfl

/-- Settles O17: the three regions of the memory a reset leaves. -/
theorem loadedMemoryContents : Obligations.LoadedMemoryContents := by
  intro s t bytes hop hlen h
  rw [step_load_fits hop hlen] at h
  cases h
  refine ⟨fun j hj => ?_, fun j hj => ?_, fun a _ hfont hrom => ?_⟩
  · refine (read_resetMemory s.cfg.font bytes _).trans ?_
    rw [if_pos (by omega), Nat.add_sub_cancel_left, Vector.getElem?_eq_getElem hj]
    rfl
  · refine (read_resetMemory s.cfg.font bytes _).trans ?_
    rw [if_neg (by omega), if_pos (by omega), Nat.add_sub_cancel_left, List.getElem?_eq_getElem hj]
    rfl
  · refine (read_resetMemory s.cfg.font bytes _).trans ?_
    rw [if_neg hfont, if_neg hrom]

/-- Settles O18: Restart is the reset from the retained ROM, or rejected. -/
theorem restartReloads : Obligations.RestartReloads := by
  intro s hop
  refine ⟨fun h => ?_, fun h => ⟨_, step_restart_loaded hop h, afterReset_resetFrom s.takeOp, rfl, rfl⟩⟩
  rw [step_of_restart hop, restart_uninitialized (s := s.takeOp) h]
  rfl

theorem toNat_countDown (b : Byte) : (State.countDown b).toNat = b.toNat - 1 := by
  unfold State.countDown
  split
  · rw [toNat_trunc8]
    have := b.isLt
    omega
  · omega

/-- Settles O20: both timers count down, or the operation is rejected. -/
theorem tickTimersCountsDown : Obligations.TickTimersCountsDown := by
  intro s hop
  rw [step_of_tickTimers hop]
  refine ⟨fun h => ?_, fun h => ?_, fun h => ?_⟩
  · rw [tickTimers_uninitialized (s := s.takeOp) h]; rfl
  · rw [tickTimers_halted (s := s.takeOp) h]; rfl
  · rw [tickTimers_accepted (s := s.takeOp) h]
    exact ⟨_, rfl, rfl, toNat_countDown s.dt, toNat_countDown s.st⟩

/-- Settles O22: a reset from no byte writes nothing to memory. -/
theorem resetIsTheLoadOfAnEmptyROM : Obligations.ResetIsTheLoadOfAnEmptyROM := by
  intro s t hop hcfg h
  rw [step_load_fits hop (Nat.zero_le _)] at h
  cases h
  exact ⟨rfl, hcfg⟩

/-- Settles O11: each operation has its own row, and the arrows into Loaded are resets. -/
theorem runStateTransitions : Obligations.RunStateTransitions := by
  intro s t h
  split
  case h_1 inp hop =>
    obtain ⟨hreject, hhalted, _⟩ := stepAcceptance s inp hop
    split
    case h_1 hr =>
      obtain ⟨t', ht', harch, _, hres, _⟩ := hreject hr
      cases ht'.symm.trans h
      exact ⟨by rw [harch, hr], hres⟩
    case h_2 hr =>
      obtain ⟨t', ht', harch, _, hres, _⟩ := hhalted hr
      cases ht'.symm.trans h
      exact ⟨by rw [harch, hr], hres⟩
    all_goals
      have hacc : s.accepts := by simp [State.accepts, *]
      rcases accepted_cases hop hacc h with ⟨c, _, ht, _⟩ | ⟨_, hrun, hres⟩
      · exact .inr ⟨by rw [ht]; rfl, c, by rw [ht]; rfl⟩
      · exact .inl ⟨hrun, hres⟩
  case h_2 hop =>
    rw [step_of_tickTimers hop] at h
    split
    case h_1 hr => rw [tickTimers_uninitialized (s := s.takeOp) hr] at h; cases h; exact ⟨rfl, rfl⟩
    case h_2 hr => rw [tickTimers_halted (s := s.takeOp) hr] at h; cases h; exact ⟨rfl, rfl⟩
    case h_3 hr => rw [tickTimers_accepted (s := s.takeOp) (.inl hr)] at h; cases h; exact ⟨rfl, rfl⟩
    case h_4 hr => rw [tickTimers_accepted (s := s.takeOp) (.inr hr)] at h; cases h; exact ⟨rfl, rfl⟩
  case h_3 bytes hop =>
    split
    case isTrue hlen =>
      rw [step_load_fits hop hlen] at h
      cases h
      exact ⟨afterReset_resetFrom (s.takeOp.withRom bytes), rfl⟩
    case isFalse hlen =>
      rw [step_of_load hop, loadRom_tooLarge (by omega)] at h
      cases h
      exact ⟨rfl, rfl⟩
  case h_4 hop =>
    split
    case h_1 hr =>
      rw [step_of_restart hop, restart_uninitialized (s := s.takeOp) hr] at h
      cases h
      exact ⟨hr, rfl⟩
    all_goals
      rw [step_restart_loaded hop (by simp [*])] at h
      cases h
      exact ⟨afterReset_resetFrom s.takeOp, rfl⟩

/-- Settles O12: in Halted a Step and a tick are rejected, and a reset clears the record. -/
theorem haltedIsAbsorbing : Obligations.HaltedIsAbsorbing := by
  intro s t hr h
  split
  case h_1 inp hop =>
    rw [step_of_step hop, State.stepOp_halted (s.takeOp.latch inp) hr] at h
    cases h
    exact ⟨rfl, rfl⟩
  case h_2 hop =>
    rw [step_of_tickTimers hop, tickTimers_halted (s := s.takeOp) hr] at h
    cases h
    exact ⟨rfl, rfl⟩
  case h_3 bytes hop =>
    split
    case isTrue hlen => rw [step_load_fits hop hlen] at h; cases h; exact ⟨rfl, rfl, rfl⟩
    case isFalse hlen => rw [step_of_load hop, loadRom_tooLarge (by omega)] at h; cases h; rfl
  case h_4 hop =>
    rw [step_restart_loaded hop (by simp [hr])] at h
    cases h
    exact ⟨rfl, rfl, rfl⟩

end Sys2Proof.Machine
end

section
/-! What every step keeps, runs after a Load, and the end of a run. -/

namespace Sys2Proof.Machine

/-- What every step keeps: the configuration; the ROM unless the step is a Load; the rest of the agenda; and once the
core is loaded, that it is. -/
structure StepKeeps (s t : State) : Prop where
  cfg : t.cfg = s.cfg
  rom : (∀ b, s.nextOp ≠ .load b) → t.rom = s.rom
  agenda : t.agenda = s.agenda.tail
  loaded : s.run ≠ .uninitialized → t.run ≠ .uninitialized

theorem stepOp_keeps {s t : State} (h : s.stepOp = .next t) :
    t.cfg = s.cfg ∧ t.rom = s.rom ∧ t.agenda = s.agenda ∧ (s.run ≠ .uninitialized → t.run ≠ .uninitialized) := by
  rcases State.stepOp_cases s h with ⟨_, rfl⟩ | ⟨_, rfl⟩ | ⟨_, ⟨_, rfl⟩ | ⟨op, _, ⟨_, rfl⟩ | ⟨i, _, hi⟩⟩⟩
  · exact ⟨rfl, rfl, rfl, id⟩
  · exact ⟨rfl, rfl, rfl, id⟩
  · exact ⟨rfl, rfl, rfl, fun _ => by simp⟩
  · exact ⟨rfl, rfl, rfl, fun _ => by simp [State.runUnmapped, State.advance]⟩
  · have hk := exec_keepsFixed hi
    refine ⟨hk.cfg, hk.rom, hk.agenda, fun _ => ?_⟩
    rcases exec_cases hi with ⟨c, _, rfl⟩ | ⟨_, hc⟩
    · simp
    · simp [hc.run]

/-- TickTimers changes at most the timers and the result, accepted or not. -/
theorem tickTimers_frame (s : State) : ∃ dt st r, s.tickTimers = { s with dt := dt, st := st, result := r } := by
  unfold State.tickTimers
  split <;> exact ⟨_, _, _, rfl⟩

theorem step_keeps {s t : State} (h : step s = .next t) : StepKeeps s t := by
  cases hop : s.nextOp with
  | step inp =>
    rw [step_of_step hop] at h
    obtain ⟨hcfg, hrom, hagenda, hloaded⟩ := stepOp_keeps h
    exact ⟨hcfg, fun _ => hrom, hagenda, hloaded⟩
  | tickTimers =>
    obtain ⟨dt, st, r, ht⟩ := tickTimers_frame s.takeOp
    rw [step_of_tickTimers hop, ht] at h
    cases h
    exact ⟨rfl, fun _ => rfl, rfl, id⟩
  | load bytes =>
    by_cases hlen : bytes.length ≤ 3584
    · rw [step_load_fits hop hlen] at h
      cases h
      exact ⟨rfl, fun hn => absurd hop (hn bytes), rfl, fun _ => by simp [State.resetFrom]⟩
    · rw [step_of_load hop, loadRom_tooLarge (by omega)] at h
      cases h
      exact ⟨rfl, fun _ => rfl, rfl, id⟩
  | restart =>
    by_cases hr : s.run = .uninitialized
    · rw [step_of_restart hop, restart_uninitialized (s := s.takeOp) hr] at h
      cases h
      exact ⟨rfl, fun _ => rfl, rfl, id⟩
    · rw [step_restart_loaded hop hr] at h
      cases h
      exact ⟨rfl, fun _ => rfl, rfl, fun _ => by simp [State.resetFrom]⟩

/-- Settles O25: the configuration is the first of the things every step keeps. -/
theorem configurationIsFixed : Obligations.ConfigurationIsFixed := fun _ _ h => (step_keeps h).cfg

/-! ### Runs after a Load -/

theorem nextOp_ne_load {s : State} (h : ∀ op ∈ s.agenda, ∀ b, op ≠ .load b) (b : List Byte) : s.nextOp ≠ .load b := by
  unfold State.nextOp
  split
  case h_1 op rest hag => exact h op (by simp [hag]) b
  case h_2 => simp

/-- What holds of every state a run reaches whose agenda names no Load. -/
structure SinceLoad (s t : State) : Prop where
  cfg : t.cfg = s.cfg
  rom : t.rom = s.rom
  noLoad : ∀ op ∈ t.agenda, ∀ b, op ≠ .load b
  loaded : t.run ≠ .uninitialized

theorem sinceLoad_of_reaches {s t : State} (hno : ∀ op ∈ s.agenda, ∀ b, op ≠ .load b) (hr : s.run ≠ .uninitialized)
    (h : Reaches s t) : SinceLoad s t := by
  induction h with
  | start => exact ⟨rfl, rfl, hno, hr⟩
  | next _ hstep ih =>
    have hk := step_keeps hstep
    refine ⟨hk.cfg.trans ih.cfg, (hk.rom (nextOp_ne_load ih.noLoad)).trans ih.rom, ?_, hk.loaded ih.loaded⟩
    rw [hk.agenda]
    exact fun op hop => ih.noLoad op (List.mem_of_mem_tail hop)

/-- Settles O19: the run keeps the configuration and the ROM, and a reset depends on nothing else. -/
theorem restartEqualsLoad : Obligations.RestartEqualsLoad := by
  intro s s1 t u bytes hop hlen hload hno hreach hrestart hu
  rw [step_load_fits hop hlen] at hload
  cases hload
  obtain ⟨hcfg, hrom, _, hloaded⟩ := sinceLoad_of_reaches hno (by simp [State.resetFrom]) hreach
  rw [step_restart_loaded hrestart hloaded] at hu
  cases hu
  exact ⟨toArch_resetFrom_congr (s := t.takeOp) (t := s.takeOp.withRom bytes) hcfg hrom, hcfg, rfl⟩

/-! ### The end of a run -/

theorem atEnd_of_halted {s : State} (h : s.run = .halted) : s.atEnd = true := by simp [State.atEnd, h]

theorem atEnd_of_accepts {s : State} (h : s.accepts) :
    s.atEnd = true ↔ s.fetchWord.bind decodeWord = some (.jp (s.pc.setWidth 12)) := by
  rcases h with h | h <;> simp [State.atEnd, h]

/-- A jump to the low 12 bits of a pc that was fetched from is a jump to itself. -/
theorem targetOf_setWidth_pc {s : State} (h : s.pc.toNat + 1 ≤ 0xFFF) : targetOf (s.pc.setWidth 12) = s.pc := by
  apply BitVec.eq_of_toNat_eq
  rw [toNat_targetOf, BitVec.toNat_setWidth]
  omega

/-- Settles O41: in Halted a Step is rejected, and a self-jump leaves memory and pc as they were. -/
theorem endOfRunIsStable : Obligations.EndOfRunIsStable := by
  intro s t inp hend hop h
  cases hr : s.run with
  | uninitialized => simp [State.atEnd, hr] at hend
  | halted =>
    rw [step_of_step hop, State.stepOp_halted (s.takeOp.latch inp) hr] at h
    cases h
    exact ⟨atEnd_of_halted hr, rfl⟩
  | loaded | running =>
    all_goals
      have hacc : s.accepts := by simp [State.accepts, hr]
      have hjump := (atEnd_of_accepts hacc).1 hend
      obtain ⟨op, hw, hd⟩ := Option.bind_eq_some_iff.1 hjump
      rw [step_accepted hop hacc, State.cycle_mapped (s.started inp) hw hd, exec_jp,
        targetOf_setWidth_pc ((State.fetchWord_eq_some s).1 hw).1] at h
      cases h
      exact ⟨(atEnd_of_accepts (.inr rfl)).2 hjump, rfl⟩

end Sys2Proof.Machine
end

section
/-! The invariant: canonical memory, bounded pc and stack, a record exactly in Halted (R36, R51, R82, R203). -/

namespace Sys2Proof.Machine

/-! ### The invariant of a running core -/

/-- What the invariant says of a core that runs: its bounds, and that no fault is recorded. -/
structure RunningInv (s : State) : Prop where
  memCanonical : Memory.wf s.cfg.font s.mem = true
  romFits : s.rom.length ≤ Config.maxRom
  run : s.run = .running
  cause : s.faultCause = .none
  faultPc : s.faultPc = 0
  pcBound : s.pc.toNat ≤ 0x10FE
  stackBound : ∀ k : Fin 16, (s.stack[k.val]).toNat ≤ 0x1000

theorem RunningInv.inv {s : State} (h : RunningInv s) : s.Inv where
  memCanonical := h.memCanonical
  romFits := h.romFits
  romAbsent hr := by simp [h.run] at hr
  recordIff := by simp [h.run, h.cause]
  recordClear _ := h.faultPc
  haltedPc hr := by simp [h.run] at hr
  pcBound _ := h.pcBound
  stackBound _ := h.stackBound

/-- A fault of a running core is recorded at its pc. -/
theorem RunningInv.raiseFault {s : State} (h : RunningInv s) {c : FaultCause} (hc : c ≠ .none) :
    (s.raiseFault c).Inv where
  memCanonical := h.memCanonical
  romFits := h.romFits
  romAbsent hr := by simp at hr
  recordIff := by simp [hc]
  recordClear hr := absurd rfl hr
  haltedPc _ := rfl
  pcBound _ := h.pcBound
  stackBound _ := h.stackBound

/-- The invariant speaks of the core's state and its configuration alone. -/
theorem inv_of_same_core {s t : State} (h : s.Inv) (harch : t.toArch = s.toArch) (hcfg : t.cfg = s.cfg) : t.Inv := by
  obtain ⟨_, _, _, _, _, _, _, _⟩ := s
  obtain ⟨_, _, _, _, _, _, _, _⟩ := t
  cases harch
  cases hcfg
  exact ⟨h.memCanonical, h.romFits, h.romAbsent, h.recordIff, h.recordClear, h.haltedPc, h.pcBound, h.stackBound⟩

/-- An accepted Step starts from a running core. -/
theorem runningInv_started {s : State} (h : s.Inv) (hacc : s.accepts) (inp : StepInput) : RunningInv (s.started inp) := by
  have hnh : s.run ≠ .halted := by rcases hacc with hr | hr <;> simp [hr]
  have hnu : s.run ≠ .uninitialized := by rcases hacc with hr | hr <;> simp [hr]
  exact ⟨h.memCanonical, h.romFits, rfl, not_not.1 (mt h.recordIff.2 hnh), h.recordClear hnh, h.pcBound hnu,
    h.stackBound hnu⟩

/-- The opcode register and the ports are no part of it. -/
theorem RunningInv.setOpcode_answer {s : State} (h : RunningInv s) (op : Word) (r : OpResult) :
    RunningInv ((s.setOpcode op).answer r) :=
  ⟨h.memCanonical, h.romFits, h.run, h.cause, h.faultPc, h.pcBound, h.stackBound⟩

/-! ### Instructions -/

theorem wf_storeDigits {s : State} (v : Byte) (h : Memory.wf s.cfg.font s.mem = true) (hb : s.i.toNat + 2 ≤ 0xFFF) :
    Memory.wf s.cfg.font (s.storeDigits v).mem = true := by
  refine Memory.wf_write (Memory.wf_write (Memory.wf_write h ?_) ?_) ?_
  all_goals
    simp only [State.dataAddress, Config.lastAddress]
    omega

theorem wf_storeRegs {s : State} (h : Memory.wf s.cfg.font s.mem = true) (n : Nat) (hb : s.i.toNat + n ≤ 0x1000) :
    Memory.wf s.cfg.font (s.storeRegs n).mem = true := by
  induction n with
  | zero => exact h
  | succ n ih =>
    have hcfg : (s.storeRegs n).cfg = s.cfg := by rw [State.storeRegs_frame]
    rw [State.storeRegs_succ, State.memWrite_mem, hcfg]
    refine Memory.wf_write (ih (by omega)) ?_
    rw [State.dataAddress, storeRegs_i]
    exact (by omega : s.i.toNat + n ≤ 0xFFF)

@[simp] theorem mem_advance (s : State) : s.advance.mem = s.mem := rfl

/-- Memory stays canonical under every instruction: a store past 0xFFF faults instead (R52). -/
theorem wf_exec {i : Instr} {s t : State} (h : exec i s = .next t) (hwf : Memory.wf s.cfg.font s.mem = true) :
    Memory.wf t.cfg.font t.mem = true := by
  rw [(exec_keepsFixed h).cfg]
  cases hs : storesMemory i with
  | false =>
    have hmem : t.mem = s.mem := by simpa [hs] using (exec_writesOnlyIts h).memory
    rwa [hmem]
  | true =>
    rcases exec_cases h with ⟨c, _, rfl⟩ | ⟨hf, _⟩
    · exact hwf
    cases i with
    | ldBVx x =>
      have hb : s.i.toNat + 2 ≤ 0xFFF := by have := not_of_ite_some_eq_none hf; omega
      rw [exec_ldBVx_inBounds x hb] at h
      cases h
      rw [mem_advance]
      exact wf_storeDigits _ hwf hb
    | ldMemVx x =>
      have hb : s.i.toNat + x.val ≤ 0xFFF := by have := not_of_ite_some_eq_none hf; omega
      rw [exec_ldMemVx_inBounds hb] at h
      cases h
      rw [mem_advance]
      exact wf_storeRegs hwf _ (by omega)
    | _ => cases hs

/-- No instruction takes pc past 0x10FE, the furthest BNNN goes (R117). -/
theorem pcBound_exec {i : Instr} {s t : State} (h : exec i s = .next t) (hpc : s.pc.toNat ≤ 0xFFE)
    (hstack : ∀ k : Fin 16, (s.stack[k.val]).toNat ≤ 0x1000) : t.pc.toNat ≤ 0x10FE := by
  have hnext := pcAfterEveryInstruction i s t hpc h
  have hsame : t.pc = s.pc → t.pc.toNat ≤ 0x10FE := fun e => by rw [e]; omega
  cases i with
  | jp nnn | jpV0 nnn => all_goals dsimp only at hnext; omega
  | call nnn =>
    dsimp only at hnext
    split at hnext
    · omega
    · exact hsame hnext
  | ret =>
    dsimp only at hnext
    split at hnext
    · rw [hnext]
      exact (hstack ⟨s.sp.val - 1, by omega⟩).trans (by decide)
    · exact hsame hnext
  | ldVxK | drw | ldBVx | ldMemVx | ldVxMem =>
    all_goals
      dsimp only at hnext
      split at hnext
      · exact hsame hnext
      · omega
  | _ => dsimp only at hnext; omega

/-- A return address is the pc after a CALL that was fetched (R112). -/
theorem stackBound_exec {i : Instr} {s t : State} (h : exec i s = .next t) (hpc : s.pc.toNat ≤ 0xFFE)
    (hstack : ∀ k : Fin 16, (s.stack[k.val]).toNat ≤ 0x1000) : ∀ k : Fin 16, (t.stack[k.val]).toNat ≤ 0x1000 := by
  rcases exec_cases h with ⟨c, _, rfl⟩ | ⟨hf, _⟩
  · exact hstack
  cases hs : writesStack i with
  | false =>
    have hkeep : t.stack = s.stack := by simpa [hs] using (exec_writesOnlyIts h).stack
    rwa [hkeep]
  | true =>
    cases i with
    | ret =>
      rw [exec_ret_pop (by have := not_of_ite_some_eq_none hf; omega)] at h
      cases h
      exact hstack
    | call nnn =>
      rw [exec_call_push nnn (by have := not_of_ite_some_eq_none hf; omega)] at h
      cases h
      intro k
      have hnext : (s.pc + 2).toNat ≤ 0x1000 := by rw [BitVec.toNat_add]; simp; omega
      simp only [Vector.getElem_set]
      split
      · exact hnext
      · exact hstack k
    | _ => cases hs

/-- Every instruction of a running core leaves the invariant. -/
theorem inv_exec {i : Instr} {s t : State} (hs : RunningInv s) (hpc : s.pc.toNat ≤ 0xFFE) (h : exec i s = .next t) :
    t.Inv := by
  rcases exec_cases h with ⟨c, hf, rfl⟩ | ⟨_, hc⟩
  · exact hs.raiseFault (execFault_ne_none_cause hf).1
  · exact RunningInv.inv
      { memCanonical := wf_exec h hs.memCanonical
        romFits := (exec_keepsFixed h).rom ▸ hs.romFits
        run := hc.run.trans hs.run
        cause := hc.faultCause.trans hs.cause
        faultPc := hc.faultPc.trans hs.faultPc
        pcBound := pcBound_exec h hpc hs.stackBound
        stackBound := stackBound_exec h hpc hs.stackBound }

/-- An unmapped word leaves the invariant (R77). -/
theorem inv_runUnmapped {s : State} (hs : RunningInv s) (hpc : s.pc.toNat ≤ 0xFFE) (op : Word) :
    ((s.setOpcode op).runUnmapped op).Inv := by
  have hnext : ((s.setOpcode op).runUnmapped op).pc.toNat = s.pc.toNat + 2 := toNat_pc_advance rfl hpc
  exact RunningInv.inv
    ⟨hs.memCanonical, hs.romFits, hs.run, hs.cause, hs.faultPc, by omega, hs.stackBound⟩

/-! ### The host operations -/

theorem inv_reset {s : State} (h : s.rom.length ≤ Config.maxRom) : ((s.resetFrom s.rom).answer .ok).Inv where
  memCanonical := Memory.wf_writeBytes s.rom _ Memory.wf_nil (Nat.add_le_add_left h _)
  romFits := h
  romAbsent hr := by cases hr
  recordIff := by simp [State.resetFrom]
  recordClear _ := rfl
  haltedPc hr := by cases hr
  pcBound _ := show (trunc16 Config.progBase).toNat ≤ 0x10FE by decide
  stackBound _ k := by simp [State.resetFrom]

theorem inv_tickTimers {s : State} (h : s.Inv) : s.tickTimers.Inv := by
  obtain ⟨dt, st, r, ht⟩ := tickTimers_frame s
  rw [ht]
  exact ⟨h.memCanonical, h.romFits, h.romAbsent, h.recordIff, h.recordClear, h.haltedPc, h.pcBound, h.stackBound⟩

theorem inv_takeOp {s : State} (h : s.Inv) : s.takeOp.Inv := inv_of_same_core h rfl rfl

/-- Settles O24: operation by operation; an accepted Step runs from a running core that meets the invariant. -/
theorem stepKeepsTheInvariant : Obligations.StepKeepsTheInvariant := by
  intro s t hs h
  cases hop : s.nextOp with
  | tickTimers =>
    rw [step_of_tickTimers hop] at h
    cases h
    exact inv_tickTimers (inv_takeOp hs)
  | load bytes =>
    by_cases hlen : bytes.length ≤ 3584
    · rw [step_load_fits hop hlen] at h
      cases h
      exact inv_reset hlen
    · rw [step_of_load hop, loadRom_tooLarge (by omega)] at h
      cases h
      exact inv_of_same_core hs rfl rfl
  | restart =>
    by_cases hr : s.run = .uninitialized
    · rw [step_of_restart hop, restart_uninitialized (s := s.takeOp) hr] at h
      cases h
      exact inv_of_same_core hs rfl rfl
    · rw [step_restart_loaded hop hr] at h
      cases h
      exact inv_reset hs.romFits
  | step inp =>
    rw [step_of_step hop] at h
    rcases State.stepOp_cases _ h with ⟨_, rfl⟩ | ⟨_, rfl⟩ | ⟨hacc, ⟨_, rfl⟩ | ⟨op, hw, hop'⟩⟩
    · exact inv_of_same_core hs rfl rfl
    · exact inv_of_same_core hs rfl rfl
    · exact (runningInv_started hs hacc inp).raiseFault (by decide)
    · have hrun := runningInv_started hs hacc inp
      have hpc : s.pc.toNat ≤ 0xFFE := Nat.le_of_succ_le_succ ((State.fetchWord_eq_some _).1 hw).1
      rcases hop' with ⟨_, rfl⟩ | ⟨i, _, hi⟩
      · exact inv_runUnmapped hrun hpc op
      · exact inv_exec (hrun.setOpcode_answer op .ok) hpc hi

/-- Settles O21: the reset state is a reset from no byte. -/
theorem resetMeetsTheInvariant : Obligations.ResetMeetsTheInvariant :=
  inv_of_same_core (inv_reset (s := State.reset) (Nat.zero_le _)) rfl rfl

/-- Settles O23: before any Load the invariant asks for nothing that R246 leaves free but the form of memory. -/
theorem powerOnMeetsTheInvariant : Obligations.PowerOnMeetsTheInvariant := by
  intro s hpower hwf
  simp only [State.isPowerOn, Bool.and_eq_true, beq_iff_eq] at hpower
  obtain ⟨⟨⟨hrun, hcause⟩, hpc⟩, hrom⟩ := hpower
  exact
    { memCanonical := hwf
      romFits := by simp [hrom]
      romAbsent := fun _ => hrom
      recordIff := by simp [hrun, hcause]
      recordClear := fun _ => hpc
      haltedPc := fun hr => by simp [hrun] at hr
      pcBound := fun hr => absurd hrun hr
      stackBound := fun hr => absurd hrun hr }

end Sys2Proof.Machine
end

section
/-! The canonical form of memory (20_memory.md): it is determined by what it reads as. -/

namespace Sys2Proof.Machine.Memory

variable {font : Font} {m q : Memory}

theorem rising_iff_pairwise : rising m = true ↔ m.Pairwise (fun c d => c.1 < d.1) := by
  induction m with
  | nil => simp [rising]
  | cons c rest ih => rw [rising_cons, List.pairwise_cons, ih]

theorem mem_of_find {a : Nat} {v : Byte} (h : find a m = some v) : (a, v) ∈ m := by
  induction m with
  | nil => cases h
  | cons c rest ih =>
    obtain ⟨b, w⟩ := c
    simp only [find] at h
    split at h
    case isTrue hab => cases h; simp [hab]
    case isFalse => exact List.mem_cons_of_mem _ (ih h)

/-- A canonical memory lists at each address exactly a byte it does not read as unlisted. -/
theorem mem_iff_read (h : wf font m = true) (a : Nat) (v : Byte) :
    (a, v) ∈ m ↔ read font m a = v ∧ v ≠ resetByte font a := by
  obtain ⟨hrise, hcells⟩ := wf_iff.1 h
  constructor
  · intro hmem
    have hfind : find a m = some v := rising_find hrise hmem
    exact ⟨by simp [read, hfind], (hcells _ hmem).2⟩
  · rintro ⟨hread, hne⟩
    cases hfind : find a m with
    | none => simp [read, hfind] at hread; exact absurd hread.symm hne
    | some w => simp [read, hfind] at hread; exact hread ▸ mem_of_find hfind

/-- Two canonical memories that read alike list the same cells, and a rising list is determined by its cells. -/
theorem eq_of_read_eq (hm : wf font m = true) (hq : wf font q = true) (h : ∀ a, read font m a = read font q a) :
    m = q := by
  have sm := rising_iff_pairwise.1 (wf_iff.1 hm).1
  have sq := rising_iff_pairwise.1 (wf_iff.1 hq).1
  have hcells : ∀ c, c ∈ m ↔ c ∈ q := fun ⟨a, v⟩ => by rw [mem_iff_read hm, mem_iff_read hq, h]
  have nm : m.Nodup := sm.imp fun hlt e => absurd hlt (by simp [e])
  have nq : q.Nodup := sq.imp fun hlt e => absurd hlt (by simp [e])
  exact List.Perm.eq_of_pairwise (fun _ _ _ _ h1 h2 => absurd h1 (Nat.lt_asymm h2)) sm sq
    ((List.perm_ext_iff_of_nodup nm nq).2 hcells)

end Sys2Proof.Machine.Memory

namespace Sys2Proof.Machine

/-- Settles O30. -/
theorem canonicalMemoriesThatReadAlikeAreEqual : Obligations.CanonicalMemoriesThatReadAlikeAreEqual :=
  fun _ _ _ => Memory.eq_of_read_eq

end Sys2Proof.Machine
end
